-- ==== Sys2Proof/Word.lean ====
section
/-! DEFINITION. The words of the block: a byte, a RawReport packed into 64 bits, and the 66-bit command word. -/

namespace Sys2Proof

/-- A byte; bit 7 is the most significant (00_scope.md R9). -/
abbrev Byte := BitVec 8

/-- A RawReport of eight bytes carried as one 64-bit value, byte 0 least significant (20_memory.md R60). -/
abbrev Report := BitVec 64

/-- The command word `cmd[65:0]` (30_encoding.md R78). -/
abbrev CommandWord := BitVec 66

end Sys2Proof
end

