-- ==== Sys2Proof/Syntax.lean ====
section
/-! DEFINITION. The four commands of the block, the rows of spec/opcode_table.json. -/

namespace Sys2Proof

/-- The host's commands (00_scope.md R3, 30_encoding.md R79). Bits of the command word outside a command's
operand (R79, column "operand used") are no part of it. -/
inductive Instr where
  /-- `INITIALIZE` (40_initialize.md R90): no operand. -/
  | init
  /-- `POLL` (41_poll.md R110): no operand. -/
  | poll
  /-- `DECODE rep` (42_decode.md R125): a report of 64 bits. -/
  | decode (rep : Report)
  /-- `CALIBRATE rep` (43_calibrate.md R155): bytes 0 to 5 of a report, `rep[47:0]`; bits 63 to 48 of a well-formed
  operand are zero, since the command word's bits there are ignored. -/
  | calibrate (rep : Report)
  deriving DecidableEq, Repr

end Sys2Proof
end

