-- ==== Sys2Proof/WellFormed.lean ====
section
/-! DEFINITION. Which terms of `Instr` are instructions: those that hold no bit outside their command's operand
(30_encoding.md R79). -/

namespace Sys2Proof

/-- Every operand of `INITIALIZE`, `POLL` and `DECODE` is an instruction's (30_encoding.md R80, R86: no command word and
no report is illegal). The operand of `CALIBRATE` is `rep[47:0]` (43_calibrate.md R155), so a term with a bit set above
bit 47 stands for no instruction. -/
def Instr.wellFormed : Instr → Bool
  | .init => true
  | .poll => true
  | .decode _ => true
  | .calibrate rep => decide (rep.toNat < 2 ^ 48)

end Sys2Proof
end

