-- ==== Sys2Proof/Decode.lean ====
section
/-! DEFINITION. The decoder of command words and the encoder, both from 30_encoding.md R78 to R80. -/

namespace Sys2Proof

/-- Why a number is no command word. -/
inductive DecodeReject where
  /-- It has a bit set at or above bit 66; a command word is always 66 bits (30_encoding.md R85). -/
  | widerThanCommandWord
  deriving DecidableEq, Repr

/-- The opcode field, `cmd[65:64]` (30_encoding.md R78). -/
def opField (w : CommandWord) : BitVec 2 := w.extractLsb' 64 2

/-- The operand field, `cmd[63:0]` (30_encoding.md R78). -/
def repField (w : CommandWord) : Report := w.extractLsb' 0 64

/-- The part of a report that a `CALIBRATE` word holds: bits 63 to 48 are ignored (30_encoding.md R80). -/
def calibrateOperand (rep : Report) : Report := (rep.extractLsb' 0 48).setWidth 64

/-- The command map (30_encoding.md R79): every word is a command, none is illegal (R80). -/
def decodeCommand (w : CommandWord) : Instr :=
  match (opField w).toNat with
  | 0 => .init
  | 1 => .poll
  | 2 => .decode (repField w)
  | _ => .calibrate (calibrateOperand (repField w))

/-- The decoder over any number: a number of more than 66 bits is rejected by name, every other one is a command word. -/
def decodeNumber (w : Nat) : Except DecodeReject Instr :=
  if w < 2 ^ 66 then .ok (decodeCommand (BitVec.ofNat 66 w)) else .error .widerThanCommandWord

/-- The opcode of a command (30_encoding.md R79). -/
def opcode : Instr → BitVec 2
  | .init => 0
  | .poll => 1
  | .decode _ => 2
  | .calibrate _ => 3

/-- The operand a command word carries (30_encoding.md R79); bits outside the command's operand are written as zero (DESIGN
CHOICE, log entry 13). -/
def operand : Instr → Report
  | .init => 0
  | .poll => 0
  | .decode rep => rep
  | .calibrate rep => calibrateOperand rep

/-- The encoder: the opcode above the operand (30_encoding.md R78). -/
def encode (i : Instr) : CommandWord := opcode i ++ operand i

/-- The instruction the decoder reads from a table row's number: its `nbits` low bits, with zeros above them up to the
command word's 66 bits. -/
def decodeTableWord (nbits w : Nat) : Option Instr :=
  match decodeNumber (w % 2 ^ nbits) with
  | .ok i => some i
  | .error _ => none

end Sys2Proof
end

