-- ==== Sys2Proof/Machine/Data.lean ====
section
/-! DEFINITION. The data the block's registers and channels hold. -/

namespace Sys2Proof.Machine

/-- The five phases of the block (10_state.md R28). Codes 5 to 7 are never taken, so there is no constructor for them. -/
inductive Phase where
  | uninitialized
  | unlocking
  | modeConfigured
  | calibrated
  | ready
  deriving DecidableEq, Repr, Inhabited

/-- The code of a phase on the `phase[2:0]` output (10_state.md R28). -/
def Phase.code : Phase → BitVec 3
  | .uninitialized => 0
  | .unlocking => 1
  | .modeConfigured => 2
  | .calibrated => 3
  | .ready => 4

/-- The status of a response (30_encoding.md R81). -/
inductive Status where
  | ok
  | transportError
  | readLengthError
  | notReadyError
  deriving DecidableEq, Repr, Inhabited

/-- The code of a status on `rsp_status[1:0]` (30_encoding.md R81). -/
def Status.code : Status → BitVec 2
  | .ok => 0
  | .transportError => 1
  | .readLengthError => 2
  | .notReadyError => 3

/-- The CalibrationBaseline register `BL`, in wire order (10_state.md R21, 30_encoding.md R77). -/
structure Baseline where
  lx : Byte
  rx : Byte
  ly : Byte
  ry : Byte
  lt : Byte
  rt : Byte
  deriving DecidableEq, Repr, Inhabited

/-- The ControllerState register `CS` (10_state.md R22 to R26), 115 bits: six raw samples, four centered values in two's
complement, two pressed depths, and the button vector `BTN[14:0]`, where 1 means pressed. -/
structure ControllerState where
  lx : Byte
  ly : Byte
  rx : Byte
  ry : Byte
  ltAnalog : Byte
  rtAnalog : Byte
  lxC : BitVec 9
  lyC : BitVec 9
  rxC : BitVec 9
  ryC : BitVec 9
  ltDepth : Byte
  rtDepth : Byte
  btn : BitVec 15
  deriving DecidableEq, Repr, Inhabited

/-- The fifteen buttons, in `BTN` order (10_state.md R25). -/
inductive Button where
  | a
  | b
  | x
  | y
  | home
  | start
  | select
  | up
  | down
  | left
  | right
  | zl
  | zr
  | dlt
  | drt
  deriving DecidableEq, Repr, Inhabited

/-- The `BTN` index of a button (10_state.md R25). -/
def Button.index : Button → Nat
  | .a => 0
  | .b => 1
  | .x => 2
  | .y => 3
  | .home => 4
  | .start => 5
  | .select => 6
  | .up => 7
  | .down => 8
  | .left => 9
  | .right => 10
  | .zl => 11
  | .zr => 12
  | .dlt => 13
  | .drt => 14

/-- The named button field of `CS`: true means pressed (10_state.md R25). -/
def ControllerState.pressed (cs : ControllerState) (button : Button) : Bool := cs.btn.getLsbD button.index

/-- A transport request (20_memory.md R53): a write of no or one data byte (`t_wlen`, `t_wdata`), or a read of `count`
bytes. The channel's bits that a request leaves unspecified are not part of it. -/
inductive Request where
  | write (addr : BitVec 7) (reg : Byte) (data : Option Byte)
  | read (addr : BitVec 7) (reg : Byte) (count : BitVec 4)
  deriving DecidableEq, Repr

/-- A transport answer (20_memory.md R53): `Err`, or `Ok` with the number of bytes returned and `t_rsp_data`. The block
asks for eight bytes and the adapter returns no more than asked (R55, 92_eei_decisions.md D30: log entry 11), so the
length is at most 8. In the answer to a write, length and data mean nothing. -/
inductive Answer where
  | err
  | ok (len : Fin 9) (data : Report)
  deriving DecidableEq, Repr

/-- What the response channel delivers (10_state.md R34): a status, and a ControllerState where the command's rule gives
one. Where the spec leaves `rsp_state` unspecified there is no payload (93_implementation_defined.md U2: log entry 9). -/
structure Response where
  status : Status
  state : Option ControllerState
  deriving DecidableEq, Repr

/-- The three steps of `ReadReport()` (20_memory.md R68). -/
inductive ReadStep where
  | select
  | settle
  | read
  deriving DecidableEq, Repr

/-- The micro-step a command has reached (10_state.md R31(b)): which of I1 to I8 (40_initialize.md R92) or P1 to P4
(41_poll.md R112) is next. `poll .select`, `.settle`, `.read` are P1, P2, P3; `i7` names the same three inside I7. P4
holds the report that P3 took, the RawReport buffer (R31(a)), which exists at no other micro-step. -/
inductive Micro where
  | idle
  | i1
  | i2
  | i3
  | i4
  | i5
  | i6
  | i7 (at_ : ReadStep)
  | i8
  | poll (at_ : ReadStep)
  | p4 (report : Report)
  deriving DecidableEq, Repr

/-- What the block drives on its channels, or takes from them, in a turn (00_scope.md R7; log entry 8). -/
inductive Event where
  /-- A command is accepted (10_state.md R33). -/
  | accepted (i : Instr)
  /-- PHASE, and with it the `phase` output (R35), takes a value. -/
  | phase (p : Phase)
  /-- A transport request is issued (20_memory.md R53). -/
  | request (r : Request)
  /-- The answer to the outstanding request is taken (R53). -/
  | answer (a : Answer)
  /-- A settle interval passes, of at least this many microseconds (R64). -/
  | settle (atLeast : Nat)
  /-- A response is delivered (10_state.md R34). -/
  | response (r : Response)
  deriving DecidableEq, Repr

end Sys2Proof.Machine
end

