-- ==== Sys2Proof/Config.lean ====
section
/-! DEFINITION. The parameters of 00_scope.md R8 and the free values of the model. -/

namespace Sys2Proof.Config

/-- `BUS_ADDR`, the accessory's 7-bit bus address (R8, 20_memory.md R51). -/
def busAddr : BitVec 7 := 0x52

/-- `REG_UNLOCK_A` and `VAL_UNLOCK_A`. -/
def regUnlockA : BitVec 8 := 0xF0
def valUnlockA : BitVec 8 := 0x55

/-- `REG_UNLOCK_B` and `VAL_UNLOCK_B`. -/
def regUnlockB : BitVec 8 := 0xFB
def valUnlockB : BitVec 8 := 0x00

/-- `REG_FORMAT` and `VAL_FORMAT`. -/
def regFormat : BitVec 8 := 0xFE
def valFormat : BitVec 8 := 0x03

/-- `REG_SELECT`, the register selector. -/
def regSelect : BitVec 8 := 0x00

/-- `REPORT_LEN`, the bytes of one RawReport. -/
def reportLen : Nat := 8

/-- `T_INIT_SETTLE` in microseconds, a lower bound (R8, 20_memory.md R64, 92_eei_decisions.md D23). -/
def initSettleMicros : Nat := 1000

/-- `T_POLL_SETTLE` in microseconds, a lower bound (R8, 20_memory.md R64, 92_eei_decisions.md D23). -/
def pollSettleMicros : Nat := 500

/-- FREE VALUE (log entry 2): what `BL` holds where its content is unspecified (10_state.md R21). Nothing is known of it. -/
opaque freeBaseline : Nat → Machine.Baseline

/-- FREE VALUE (log entry 2): what `CS` holds from when it loses its value (10_state.md R27). Nothing is known of it. -/
opaque freeControllerState : Nat → Machine.ControllerState

end Sys2Proof.Config
end

