-- ==== Sys2Proof/Machine/State.lean ====
section
/-! DEFINITION. The machine's state, its reset value, and the reasons a step can stop. -/

namespace Sys2Proof.Machine

/-- The state of the block (10_state.md R20, R31) and, as plain data, what the agents around it have ready for it. -/
structure State where
  /-- PHASE (R28). -/
  phase : Phase
  /-- CS_VALID (R27). -/
  csValid : Bool
  /-- The CalibrationBaseline register (R21). -/
  bl : Baseline
  /-- The ControllerState register (R22 to R26). -/
  cs : ControllerState
  /-- The micro-step the command in progress has reached; idle when there is none (R31(b)). -/
  micro : Micro
  /-- The transport request issued and not yet answered (R31(c), R36). -/
  inflight : Option Request
  /-- The command channel (R33): the head is the word on `cmd`, cmd_valid is 1 when the list is not empty. Log entry 3. -/
  cmds : List CommandWord
  /-- The adapter's answers that no step has taken yet, in the order it gives them (20_memory.md R58). Log entry 4. -/
  answers : List Answer
  /-- How many requests a reset made the block forget whose answers are still to come, and to be ignored
  (70_reset_and_hazards.md R192). Log entry 5. -/
  stale : Nat
  /-- The reset input as the next step samples it (10_state.md R37). Log entry 6. -/
  rst : Bool
  /-- How many steps of the block follow the first in one turn (00_scope.md R7). Log entry 7. -/
  burst : Nat
  /-- What the block drove on its channels in the last turn, oldest first (R34, R39). Log entry 8. -/
  out : List Event
  /-- The index of the next free value. Log entry 2. -/
  fresh : Nat
  deriving DecidableEq, Repr

/-- Reasons a step stops with a fault: there are none. Every error of the block is the status of a response, none is
fatal and the block never halts itself (60_exceptions.md R165, R174). -/
inductive Fault where
  deriving DecidableEq, Repr

/-- Reasons a step refuses an instruction. -/
inductive Refusal where
  /-- Raised by an arm of `exec` that has no meaning yet (none has this now). Safe: the machine stops. -/
  | notModelled (mnemonic : String)
  deriving DecidableEq, Repr

/-- The machine right after reset (10_state.md R38, 70_reset_and_hazards.md R191): `Uninitialized`, CS_VALID 0, no
command in progress, no request outstanding, nothing delivered, and nothing yet from the agents around. The spec gives
`BL` and `CS` no value here; the model names zero (DESIGN CHOICE, log entry 1). -/
def State.reset : State where
  phase := .uninitialized
  csValid := false
  bl := ⟨0, 0, 0, 0, 0, 0⟩
  cs := ⟨0, 0, 0, 0, 0, 0, 0, 0, 0, 0, 0, 0, 0⟩
  micro := .idle
  inflight := none
  cmds := []
  answers := []
  stale := 0
  rst := false
  burst := 15
  out := []
  fresh := 0

end Sys2Proof.Machine
end

