-- ==== Sys2Proof/Machine/Operands.lean ====
section
/-! DEFINITION. Operands of the datapath: the bytes of a report, the samples, the wire bits of the buttons, the baseline
(30_encoding.md R71 to R77, 42_decode.md R127, R128). -/

namespace Sys2Proof.Machine

/-- `B[i] = rep[8i+7:8i]` (20_memory.md R60). -/
def byteAt (rep : Report) (i : Nat) : Byte := rep.extractLsb' (8 * i) 8

/-- `B[j][k]`, one wire bit of a report. -/
def wireBit (rep : Report) (j k : Nat) : Bool := (byteAt rep j).getLsbD k

/-- The six raw samples of a report, in wire order. -/
structure Samples where
  lx : Byte
  rx : Byte
  ly : Byte
  ry : Byte
  lt : Byte
  rt : Byte
  deriving DecidableEq, Repr

/-- `unpack_samples` (42_decode.md R127): right X before left Y, "must be preserved exactly". -/
def unpackSamples (rep : Report) : Samples where
  lx := byteAt rep 0
  rx := byteAt rep 1
  ly := byteAt rep 2
  ry := byteAt rep 3
  lt := byteAt rep 4
  rt := byteAt rep 5

/-- The unpacker's lookup table (30_encoding.md R74): byte index and bit index of each button, in `BTN` order. -/
def buttonTable : List (Nat × Nat) :=
  [ (7, 4),   -- A
    (7, 6),   -- B
    (7, 3),   -- X
    (7, 5),   -- Y
    (6, 3),   -- Home
    (6, 2),   -- Start
    (6, 4),   -- Select
    (7, 0),   -- Up
    (6, 6),   -- Down
    (7, 1),   -- Left
    (6, 7),   -- Right
    (7, 7),   -- ZL
    (7, 2),   -- ZR
    (6, 5),   -- digital-LT
    (6, 1) ]  -- digital-RT

/-- The generic unpack routine: gathers wire bits, the first of the list at bit 0. -/
def gather (rep : Report) : List (Nat × Nat) → BitVec 15
  | [] => 0
  | (j, k) :: rows => (BitVec.ofBool (wireBit rep j k)).setWidth 15 ||| (gather rep rows <<< 1)

/-- `unpack_buttons` (42_decode.md R128): the wire vector `W[14:0]`, still active-low. -/
def unpackButtons (rep : Report) : BitVec 15 := gather rep buttonTable

/-- The baseline the calibration action takes from a report (43_calibrate.md R156): bytes 0 to 5 as they are. -/
def baselineOf (rep : Report) : Baseline where
  lx := byteAt rep 0
  rx := byteAt rep 1
  ly := byteAt rep 2
  ry := byteAt rep 3
  lt := byteAt rep 4
  rt := byteAt rep 5

end Sys2Proof.Machine
end

