-- ==== Sys2Proof/Machine/Datapath.lean ====
section
/-! DEFINITION. The datapath of 42_decode.md: the polarity inverter, the signed centering pipeline, the unsigned depth
pipeline, and `decode`. -/

namespace Sys2Proof.Machine

/-- `invert` (R130): every lane of the active-low wire vector inverted, so that 1 means pressed. -/
def invert (w : BitVec 15) : BitVec 15 := ~~~w

/-- `center` (R132): both operands zero-extended to nine bits, never clamped. -/
def center (raw base : Byte) : BitVec 9 := raw.setWidth 9 - base.setWidth 9

/-- `depth` (R134): zero where the baseline is not below the sample, else the difference. -/
def depth (raw base : Byte) : Byte := if raw.toNat ≤ base.toNat then 0 else raw - base

/-- `decode` (R126): a pure, total function of a report and a baseline. -/
def decodeReport (rep : Report) (base : Baseline) : ControllerState :=
  let r := unpackSamples rep
  { lx := r.lx
    ly := r.ly
    rx := r.rx
    ry := r.ry
    ltAnalog := r.lt
    rtAnalog := r.rt
    lxC := center r.lx base.lx
    lyC := center r.ly base.ly
    rxC := center r.rx base.rx
    ryC := center r.ry base.ry
    ltDepth := depth r.lt base.lt
    rtDepth := depth r.rt base.rt
    btn := invert (unpackButtons rep) }

end Sys2Proof.Machine
end

