-- ==== Sys2Proof/Machine/Flags.lean ====
section
/-! DEFINITION. The block keeps no flag and no condition code (10_state.md R32). What stands here are the one-bit
conditions its rules test and the outputs it derives from its state. -/

namespace Sys2Proof.Machine

/-- The phase test at acceptance (60_exceptions.md R171(1)): `POLL`, `DECODE` and `CALIBRATE` need `Ready`. -/
def State.isReady (s : State) : Bool := decide (s.phase = .ready)

/-- `cmd_ready`: 1 exactly when no command is in progress (10_state.md R33). -/
def State.cmdReady (s : State) : Bool := decide (s.micro = .idle)

/-- The response delivered in a list of events, if one was. -/
def responseIn : List Event → Option Response
  | [] => none
  | .response r :: _ => some r
  | _ :: es => responseIn es

/-- The response channel in the last turn: `rsp_valid` is 1 when this is some response (10_state.md R34). -/
def State.rsp (s : State) : Option Response := responseIn s.out

/-- `rsp_status[1:0]` of the response delivered in the last turn (30_encoding.md R81). -/
def State.rspStatusOut (s : State) : Option (BitVec 2) := s.rsp.map fun r => r.status.code

/-- The `phase[2:0]` output (10_state.md R35). -/
def State.phaseOut (s : State) : BitVec 3 := s.phase.code

/-- The `cs` output as a host may use it: it has a value only while `cs_valid` is 1 (70_reset_and_hazards.md R202). -/
def State.csOut (s : State) : Option ControllerState := if s.csValid then some s.cs else none

end Sys2Proof.Machine
end

