-- ==== Sys2Proof/Machine/Ops.lean ====
section
/-! DEFINITION. The operations every command shares: driving the channels, accepting a command, delivering a response
(the block's only "trap entry", 60_exceptions.md R172), losing register contents, reset, and what a step begins with. -/

namespace Sys2Proof.Machine

/-- The block drives an event on one of its channels. -/
def emit (e : Event) (s : State) : State := { s with out := s.out ++ [e] }

/-- `PHASE <- p`, seen on the `phase` output (10_state.md R28, R35). -/
def setPhase (p : Phase) (s : State) : State := emit (.phase p) { s with phase := p }

/-- The command goes on to a micro-step. -/
def goto (m : Micro) (s : State) : State := { s with micro := m }

/-- A command is accepted (10_state.md R33): a new turn's output begins, and nothing of an earlier command is left (R31). -/
def accept (i : Instr) (s : State) : State :=
  { s with micro := .idle, inflight := none, out := [.accepted i] }

/-- `respond(status)` (60_exceptions.md R172): the command ends, its status is delivered, nothing is saved, no mode
changes. There is no return: the block waits for the next command (R174). -/
def respond (st : Status) (payload : Option ControllerState) (s : State) : State :=
  emit (.response ⟨st, payload⟩) { s with micro := .idle }

/-- `CS` loses its value: CS_VALID becomes 0 and the content of `CS` is unspecified (10_state.md R27): a free value. -/
def discardCs (s : State) : State :=
  { s with csValid := false, cs := Config.freeControllerState s.fresh, fresh := s.fresh + 1 }

/-- `BL` loses its value: its content is unspecified (10_state.md R21): a free value. -/
def discardBl (s : State) : State :=
  { s with bl := Config.freeBaseline s.fresh, fresh := s.fresh + 1 }

/-- The calibration action (43_calibrate.md R156): all six baseline fields in one step. -/
def calibrateFrom (rep : Report) (s : State) : State := { s with bl := baselineOf rep }

/-- `CS <- st; CS_VALID <- 1`, `CS` as a whole in one step (10_state.md R26, 41_poll.md R114). -/
def storeCs (st : ControllerState) (s : State) : State := { s with cs := st, csValid := true }

/-- The requests left unanswered if the block forgets now: an outstanding one joins those forgotten before. -/
def forgotten (s : State) : Nat :=
  match s.inflight with
  | none => s.stale
  | some _ => s.stale + 1

/-- Reset (70_reset_and_hazards.md R191, R192): the state of 10_state.md R38, a command in progress abandoned without a
response, an outstanding request forgotten. `BL` and `CS` are unspecified (free values). The reset input is sampled,
the other agents' data stay. -/
def resetBlock (s : State) : State :=
  setPhase .uninitialized
    (discardBl (discardCs
      { s with micro := .idle, inflight := none, stale := forgotten s, rst := false, out := [] }))

/-- What a step of the machine begins with. -/
inductive Turn where
  /-- The reset input is 1. -/
  | reset
  /-- A command is in progress and goes on. -/
  | resume
  /-- Nothing to do. -/
  | wait
  /-- `cmd_valid` and `cmd_ready` are both 1: the word is accepted (10_state.md R33). -/
  | command (w : CommandWord) (rest : List CommandWord)
  deriving DecidableEq, Repr

/-- Reset first (R191); then the command in progress, during which no other is accepted (R33); then a presented command. -/
def nextTurn (s : State) : Turn :=
  if s.rst then .reset
  else if s.cmdReady then
    match s.cmds with
    | [] => .wait
    | w :: rest => .command w rest
  else .resume

/-- The command word leaves the command channel at acceptance. -/
def takeCommand (rest : List CommandWord) (s : State) : State := { s with cmds := rest }

/-- A turn in which nothing happens: the outputs of the last turn are gone (10_state.md R34, R191). -/
def idleTurn (s : State) : State := { s with out := [] }

end Sys2Proof.Machine
end

