-- ==== Sys2Proof/Machine/Calibrate.lean ====
section
/-! DEFINITION. The meaning of CALIBRATE (43_calibrate.md R155 to R159). -/

namespace Sys2Proof.Machine

/-- `CALIBRATE rep`: in `Ready`, the calibration action and CS_VALID cleared (K1); else `NotReadyError` (K0). -/
def execCalibrate (rep : Report) (s : State) : Host.Outcome State Fault Refusal :=
  if s.isReady then .next (respond .ok none (discardCs (calibrateFrom rep (accept (.calibrate rep) s))))
  else .next (respond .notReadyError none (accept (.calibrate rep) s))

end Sys2Proof.Machine
end

