-- ==== Sys2Proof/Machine/DecodeReport.lean ====
section
/-! DEFINITION. The meaning of DECODE (42_decode.md R125, R141). -/

namespace Sys2Proof.Machine

/-- `DECODE rep`: in `Ready`, `decode(rep, BL)` in the response (E1); else `NotReadyError` (E0). It writes no register and
issues no request. -/
def execDecode (rep : Report) (s : State) : Host.Outcome State Fault Refusal :=
  if s.isReady then .next (respond .ok (some (decodeReport rep s.bl)) (accept (.decode rep) s))
  else .next (respond .notReadyError none (accept (.decode rep) s))

end Sys2Proof.Machine
end

