-- ==== Sys2Proof/Machine/Transport.lean ====
section
/-! DEFINITION. The transport channel: issuing a request, taking its answer, settling, and `ReadReport()`
(20_memory.md R52 to R68). -/

namespace Sys2Proof.Machine

/-- `writeRegister(0x52, 0xF0, [0x55])` (40_initialize.md I1). -/
def unlockAWrite : Request := .write Config.busAddr Config.regUnlockA (some Config.valUnlockA)

/-- `writeRegister(0x52, 0xFB, [0x00])` (I3). -/
def unlockBWrite : Request := .write Config.busAddr Config.regUnlockB (some Config.valUnlockB)

/-- `writeRegister(0x52, 0xFE, [0x03])` (I5). -/
def formatWrite : Request := .write Config.busAddr Config.regFormat (some Config.valFormat)

/-- `writeRegister(0x52, 0x00, [])`: the register selector, no data byte (20_memory.md R54). -/
def selectorWrite : Request := .write Config.busAddr Config.regSelect none

/-- `readBytes(0x52, 0x00, 8)` (20_memory.md R55). -/
def reportRead : Request := .read Config.busAddr Config.regSelect (BitVec.ofNat 4 Config.reportLen)

/-- The request a micro-step issues, if it issues one. -/
def Micro.request : Micro → Option Request
  | .i1 => some unlockAWrite
  | .i3 => some unlockBWrite
  | .i5 => some formatWrite
  | .i7 .select => some selectorWrite
  | .i7 .read => some reportRead
  | .poll .select => some selectorWrite
  | .poll .read => some reportRead
  | .idle => none
  | .i2 => none
  | .i4 => none
  | .i6 => none
  | .i7 .settle => none
  | .i8 => none
  | .poll .settle => none
  | .p4 _ => none

/-- The step that issues a request (10_state.md R31(c)). -/
def issue (r : Request) (s : State) : State := emit (.request r) { s with inflight := some r }

/-- The answers to the requests the block has made or will make: those to requests forgotten by a reset come before them
and are ignored (70_reset_and_hazards.md R192). -/
def coming (s : State) : List Answer := s.answers.drop s.stale

/-- The answer that is there for the outstanding request, and those after it; none while the adapter has not answered. -/
def answerFor (s : State) : Option (Answer × List Answer) :=
  match coming s with
  | [] => none
  | a :: rest => some (a, rest)

/-- The step that takes an answer. -/
def takeAnswer (a : Answer) (rest : List Answer) (s : State) : State :=
  emit (.answer a) { s with inflight := none, answers := rest, stale := 0 }

/-- One transport request with its answer (20_memory.md R54, R55): issued at one step, answered at another. While there
is no answer nothing changes: a request never answered leaves the block here for ever (60_exceptions.md R177). -/
def transact (r : Request) (answered : Answer → State → State) (s : State) : State :=
  match s.inflight with
  | none => issue r s
  | some _ =>
    match answerFor s with
    | none => s
    | some (a, rest) => answered a (takeAnswer a rest s)

/-- The answer to a write: on `Err` the command's failure, else what comes next; it is never repeated (R54). -/
def afterWrite (failed done : State → State) (a : Answer) (s : State) : State :=
  match a with
  | .err => failed s
  | .ok _ _ => done s

/-- The answer to the report read (R68): `Err`, fewer than eight bytes, or a report. -/
def afterRead (failed : Status → State → State) (done : Report → State → State) (a : Answer) (s : State) : State :=
  match a with
  | .err => failed .transportError s
  | .ok len data => if len.val < Config.reportLen then failed .readLengthError s else done data s

/-- `Settle(t)` (20_memory.md R64): a step that changes no register; the event records its lower bound. -/
def settleFor (micros : Nat) (m : Micro) (s : State) : State := goto m (emit (.settle micros) s)

/-- `ReadReport()` (20_memory.md R68), shared by I7 of `INITIALIZE` and P1 to P3 of `POLL`: the selector write, the
settle, the read. `at_` names the caller's micro-steps, `failed` and `done` what it does with the result. -/
def readReport (at_ : ReadStep → Micro) (failed : Status → State → State) (done : Report → State → State) :
    ReadStep → State → State
  | .select, s => transact selectorWrite (afterWrite (failed .transportError) (goto (at_ .settle))) s
  | .settle, s => settleFor Config.pollSettleMicros (at_ .read) s
  | .read, s => transact reportRead (afterRead failed done) s

end Sys2Proof.Machine
end

