-- ==== Sys2Proof/Machine/Micro.lean ====
section
/-! DEFINITION. One step of the command in progress (40_initialize.md R92, 41_poll.md R112), and a turn of several. -/

namespace Sys2Proof.Machine

/-- `fail(e)` of `INITIALIZE` (40_initialize.md R93). -/
def failInit (e : Status) (s : State) : State := respond e none (setPhase .uninitialized s)

/-- The end of I5: the format is selected. -/
def formatSelected (s : State) : State := goto .i6 (setPhase .modeConfigured s)

/-- The end of I7: the baseline is captured and is all that is done with the report. -/
def baselineCaptured (rep : Report) (s : State) : State := goto .i8 (setPhase .calibrated (calibrateFrom rep s))

/-- I8: `Ready`, unconditionally. -/
def initDone (s : State) : State := respond .ok none (setPhase .ready s)

/-- A failure of `POLL` (41_poll.md R113, R115): the status, and nothing else changes. -/
def failPoll (e : Status) (s : State) : State := respond e none s

/-- P4 of `POLL`: decode against the baseline, store, respond. -/
def pollDone (rep : Report) (s : State) : State :=
  let st := decodeReport rep s.bl
  respond .ok (some st) (storeCs st s)

/-- One step of the command in progress; none when the block is idle. -/
def microStep (s : State) : State :=
  match s.micro with
  | .idle => s
  | .i1 => transact unlockAWrite (afterWrite (failInit .transportError) (goto .i2)) s
  | .i2 => settleFor Config.initSettleMicros .i3 s
  | .i3 => transact unlockBWrite (afterWrite (failInit .transportError) (goto .i4)) s
  | .i4 => settleFor Config.initSettleMicros .i5 s
  | .i5 => transact formatWrite (afterWrite (failInit .transportError) formatSelected) s
  | .i6 => settleFor Config.initSettleMicros (.i7 .select) s
  | .i7 r => readReport .i7 failInit baselineCaptured r s
  | .i8 => initDone s
  | .poll r => readReport .poll failPoll (fun rep => goto (.p4 rep)) r s
  | .p4 rep => pollDone rep s

/-- Several steps of the command in progress. -/
def runMicro : Nat → State → State
  | 0, s => s
  | n + 1, s => runMicro n (microStep s)

/-- A turn in which the command in progress goes on: one step and the `burst` that follow it. -/
def resumeTurn (s : State) : State := runMicro (s.burst + 1) (idleTurn s)

end Sys2Proof.Machine
end

