-- ==== Sys2Proof/Machine/Initialize.lean ====
section
/-! DEFINITION. The meaning of INITIALIZE (40_initialize.md). -/

namespace Sys2Proof.Machine

/-- I0: `PHASE <- Unlocking; CS_VALID <- 0`; the old baseline and the old `CS` are discarded (R91, R92). -/
def beginInitialize (s : State) : State :=
  goto .i1 (setPhase .unlocking (discardBl (discardCs (accept .init s))))

/-- `INITIALIZE` (R90 to R96): accepted in every phase a command can arrive in; the steps I1 to I8 follow as far as this
turn reaches and the transport answers. -/
def execInitialize (s : State) : Host.Outcome State Fault Refusal :=
  .next (runMicro s.burst (beginInitialize s))

end Sys2Proof.Machine
end

