-- ==== Sys2Proof/Machine/Poll.lean ====
section
/-! DEFINITION. The meaning of POLL (41_poll.md). -/

namespace Sys2Proof.Machine

/-- `POLL` (R110 to R117): outside `Ready` the response is `NotReadyError` at once (P0, R111); in `Ready` the steps P1 to
P4 follow as far as this turn reaches and the transport answers. -/
def execPoll (s : State) : Host.Outcome State Fault Refusal :=
  if s.isReady then .next (runMicro s.burst (goto (.poll .select) (accept .poll s)))
  else .next (respond .notReadyError none (accept .poll s))

end Sys2Proof.Machine
end

