-- ==== Sys2Proof/Machine/Dispatch.lean ====
section
/-! DEFINITION. One arm per command, each one call of its meaning. -/

namespace Sys2Proof.Machine

def exec (i : Instr) (s : State) : Host.Outcome State Fault Refusal :=
  match i with
  | .init => Sys2Proof.Machine.execInitialize s
  | .poll => Sys2Proof.Machine.execPoll s
  | .decode rep => Sys2Proof.Machine.execDecode rep s
  | .calibrate rep => Sys2Proof.Machine.execCalibrate rep s

end Sys2Proof.Machine
end

