-- ==== Sys2Proof/Machine/Step.lean ====
section
/-! DEFINITION. One step of the machine, and how the host places a command for it. -/

namespace Sys2Proof.Machine

/-- One step: reset, the command in progress, a presented command, or nothing (70_reset_and_hazards.md R191,
10_state.md R33). -/
def step (s : State) : Host.Outcome State Fault Refusal :=
  match nextTurn s with
  | .reset => .next (resetBlock s)
  | .resume => .next (resumeTurn s)
  | .wait => .next (idleTurn s)
  | .command w rest => exec (decodeCommand w) (takeCommand rest s)

/-- The command word whose bits are the `nbits` low bits of `w`, presented to an idle block whose reset input is 0, so
that the next step accepts it (log entry 3). A command in progress is abandoned, its outstanding request forgotten. -/
def State.withFetchWord (s : State) (nbits w : Nat) : State :=
  { s with
    cmds := BitVec.ofNat 66 (w % 2 ^ nbits) :: s.cmds
    micro := .idle
    inflight := none
    stale := forgotten s
    rst := false }

end Sys2Proof.Machine
end

