-- ==== Sys2Proof/Machine/Env.lean ====
section
/-! DEFINITION. What the agents around the block can do between two turns (10_state.md R33, R36, R37). The step never
calls these; they say which changes of a state are the environment's. -/

namespace Sys2Proof.Machine

/-- The host presents a further command (10_state.md R33). -/
def State.present (w : CommandWord) (s : State) : State := { s with cmds := s.cmds ++ [w] }

/-- The adapter gives a further answer (20_memory.md R53). -/
def State.deliver (a : Answer) (s : State) : State := { s with answers := s.answers ++ [a] }

/-- The adapter drops a request that a reset made the block forget: no answer to it comes. What the adapter does with such
a request "is outside the block" (70_reset_and_hazards.md R192; log entry 5). -/
def State.dropForgotten (s : State) : State := { s with stale := s.stale - 1 }

/-- The host drives the reset input (10_state.md R37). -/
def State.driveRst (b : Bool) (s : State) : State := { s with rst := b }

/-- The environment lets this many further steps pass in the next turns (00_scope.md R7). -/
def State.setBurst (n : Nat) (s : State) : State := { s with burst := n }

end Sys2Proof.Machine
end

