-- ==== Sys2Proof/Safety.lean ====
section
/-! DEFINITION. The terms in which claims are stated: what a turn shows on the channels, the phase table, and the
invariant of the machine. -/

namespace Sys2Proof.Machine

/-- The transport requests in a list of events, in order. -/
def requestsOf : List Event → List Request
  | [] => []
  | .request r :: es => r :: requestsOf es
  | .accepted _ :: es => requestsOf es
  | .phase _ :: es => requestsOf es
  | .answer _ :: es => requestsOf es
  | .settle _ :: es => requestsOf es
  | .response _ :: es => requestsOf es

/-- The responses in a list of events, in order. -/
def responsesOf : List Event → List Response
  | [] => []
  | .response r :: es => r :: responsesOf es
  | .accepted _ :: es => responsesOf es
  | .phase _ :: es => responsesOf es
  | .answer _ :: es => responsesOf es
  | .settle _ :: es => responsesOf es
  | .request _ :: es => responsesOf es

/-- The values PHASE takes in a list of events, in order. -/
def phasesOf : List Event → List Phase
  | [] => []
  | .phase p :: es => p :: phasesOf es
  | .accepted _ :: es => phasesOf es
  | .request _ :: es => phasesOf es
  | .answer _ :: es => phasesOf es
  | .settle _ :: es => phasesOf es
  | .response _ :: es => phasesOf es

/-- The transitions of PHASE other than by reset (10_state.md R29). -/
def Phase.edge : Phase → Phase → Bool
  | .uninitialized, .unlocking => true
  | .unlocking, .modeConfigured => true
  | .modeConfigured, .calibrated => true
  | .calibrated, .ready => true
  | .ready, .unlocking => true
  | .unlocking, .uninitialized => true
  | .modeConfigured, .uninitialized => true
  | _, _ => false

/-- The phases in a list are taken one after another along the table's transitions, from one phase to another. -/
def phasePath (p : Phase) : List Phase → Phase → Prop
  | [], q => p = q
  | x :: xs, q => p.edge x = true ∧ phasePath x xs q

/-- The transport channel through a list of events (20_memory.md R62): a request is issued only when none is
outstanding, an answer is taken only for an outstanding request; from one outstanding request, or none, to another. -/
def channelPath (pending : Option Request) : List Event → Option Request → Prop
  | [], after => pending = after
  | .request r :: es, after => pending = none ∧ channelPath (some r) es after
  | .answer _ :: es, after => pending ≠ none ∧ channelPath none es after
  | .accepted _ :: es, after => channelPath pending es after
  | .phase _ :: es, after => channelPath pending es after
  | .settle _ :: es, after => channelPath pending es after
  | .response _ :: es, after => channelPath pending es after

/-- The phases a micro-step can stand in (10_state.md R29, 40_initialize.md R92, 41_poll.md R112). -/
def phaseFits : Micro → Phase → Prop
  | .idle, p => p = .uninitialized ∨ p = .ready
  | .i1, p => p = .unlocking
  | .i2, p => p = .unlocking
  | .i3, p => p = .unlocking
  | .i4, p => p = .unlocking
  | .i5, p => p = .unlocking
  | .i6, p => p = .modeConfigured
  | .i7 _, p => p = .modeConfigured
  | .i8, p => p = .calibrated
  | .poll _, p => p = .ready
  | .p4 _, p => p = .ready

/-- The invariant of the machine (10_state.md R30, R31, R36). -/
structure StateInv (s : State) : Prop where
  /-- The phase is one the micro-step can stand in; between commands it is `Uninitialized` or `Ready` (R29). -/
  phaseOfMicro : phaseFits s.micro s.phase
  /-- CS_VALID = 1 implies PHASE = `Ready` (R30(b)). -/
  validInReady : s.csValid = true → s.phase = .ready
  /-- CS_VALID = 1 implies that `CS` is the decode of some report under the current `BL` (R30(c)). -/
  csDecoded : s.csValid = true → ∃ rep, s.cs = decodeReport rep s.bl
  /-- An outstanding request is the one the micro-step issues; none survives a command (R31(c)). -/
  inflightOfMicro : ∀ r, s.inflight = some r → s.micro.request = some r

/-- The five requests of a successful `INITIALIZE`, in order (40_initialize.md R94). -/
def initRequests : List Request := [unlockAWrite, unlockBWrite, formatWrite, selectorWrite, reportRead]

/-- The two requests of a successful `POLL`, in order (41_poll.md R116). -/
def pollRequests : List Request := [selectorWrite, reportRead]

/-- The statuses each command can report (60_exceptions.md R169). -/
def mayReport : Instr → Status → Bool
  | .init, .ok => true
  | .init, .transportError => true
  | .init, .readLengthError => true
  | .init, .notReadyError => false
  | .poll, _ => true
  | .decode _, .ok => true
  | .decode _, .notReadyError => true
  | .decode _, .transportError => false
  | .decode _, .readLengthError => false
  | .calibrate _, .ok => true
  | .calibrate _, .notReadyError => true
  | .calibrate _, .transportError => false
  | .calibrate _, .readLengthError => false

/-- The command a micro-step belongs to. -/
def Micro.command : Micro → Option Instr
  | .idle => none
  | .i1 => some .init
  | .i2 => some .init
  | .i3 => some .init
  | .i4 => some .init
  | .i5 => some .init
  | .i6 => some .init
  | .i7 _ => some .init
  | .i8 => some .init
  | .poll _ => some .poll
  | .p4 _ => some .poll

end Sys2Proof.Machine
end

