-- ==== Sys2Proof/Certificates/Slice0/Obligations.lean ====
section
/-! DEFINITION. The statements for the provers, from the numbered rules of spec/. -/

open Sys2Proof Sys2Proof.Machine

namespace Sys2Proof.Claims

/-- The opcode bits of a command word and its command's operand, the column "operand used" of 30_encoding.md R79, by
opcode: none, none, `rep`, `rep[47:0]`. -/
def usedBits (op : BitVec 2) : CommandWord :=
  if op = 0 ∨ op = 1 then 0x30000000000000000
  else if op = 2 then 0x3FFFFFFFFFFFFFFFF
  else 0x30000FFFFFFFFFFFF

/-- The `rep` bit that carries each button, written from the last column of 30_encoding.md R74. -/
def repBitOf : Button → Nat
  | .a => 60
  | .b => 62
  | .x => 59
  | .y => 61
  | .home => 51
  | .start => 50
  | .select => 52
  | .up => 56
  | .down => 54
  | .left => 57
  | .right => 55
  | .zl => 63
  | .zr => 58
  | .dlt => 53
  | .drt => 49

/-- An answer `Ok`. -/
def isOk : Answer → Bool
  | .ok _ _ => true
  | .err => false

/-- What no command writes: the command channel, the reset input, the length of a turn. -/
def sameInputs (s t : State) : Prop := t.cmds = s.cmds ∧ t.rst = s.rst ∧ t.burst = s.burst

/-- The registers of 10_state.md R20, all unchanged. -/
def sameRegisters (s t : State) : Prop :=
  t.phase = s.phase ∧ t.csValid = s.csValid ∧ t.bl = s.bl ∧ t.cs = s.cs ∧ t.fresh = s.fresh

/-- The transport's side, untouched. -/
def sameTransport (s t : State) : Prop := t.answers = s.answers ∧ t.stale = s.stale

/-- No command in progress and no request outstanding: `cmd_ready` is 1 (10_state.md R33). -/
def idleNow (t : State) : Prop := t.micro = .idle ∧ t.inflight = none

/-- The command was refused with `NotReadyError`: nothing written, nothing asked of the transport, one response. -/
def refusedNotReady (i : Instr) (s t : State) : Prop :=
  sameRegisters s t ∧ sameInputs s t ∧ sameTransport s t ∧ idleNow t ∧
    t.out = [.accepted i, .response ⟨.notReadyError, none⟩]

/-- Two states alike but for contents the spec leaves unspecified: `CS` while CS_VALID is 0, `BL` outside `Calibrated`
and `Ready` (93_implementation_defined.md U1). -/
def alikeWhereSpecified (s t : State) : Prop :=
  ∃ bl cs, t = { s with bl := bl, cs := cs } ∧
    (s.csValid = true → cs = s.cs) ∧ (s.phase = .calibrated ∨ s.phase = .ready → bl = s.bl)

end Sys2Proof.Claims

open Sys2Proof.Claims

/-! Encoding. -/

/-- Decoding what the encoder writes gives the instruction back, with every operand at every value (R78, R79). How a
`CALIBRATE` operand stands in 64 bits is the model's choice (log entry 13). -/
def Obligations.DecodeOfEncodeIsTheCommand : Prop :=
  ∀ i : Instr, i.wellFormed = true → decodeCommand (encode i) = i ∧ decodeNumber (encode i).toNat = .ok i

/-- Encoding what the decoder reads gives the word back, less the bits outside its command's operand (R79), and the decoder
gives only well-formed instructions. That the encoder writes those bits as zero is the model's choice (log entry 13). A
`DECODE` word comes back whole: its bit 48 is part of the operand, and only `decode` ignores it (R75, R80). -/
def Obligations.EncodeOfDecodeKeepsTheUsedBits : Prop :=
  ∀ w : CommandWord, encode (decodeCommand w) = w &&& usedBits (opField w) ∧ (decodeCommand w).wellFormed = true

/-- The command map, row by row: match value under the mask, command, operand used (R79). -/
def Obligations.CommandMapByMatchAndMask : Prop :=
  ∀ w : CommandWord,
    (w &&& 0x30000000000000000 = 0x00000000000000000 → decodeCommand w = .init) ∧
    (w &&& 0x30000000000000000 = 0x10000000000000000 → decodeCommand w = .poll) ∧
    (w &&& 0x30000000000000000 = 0x20000000000000000 → decodeCommand w = .decode (w.extractLsb' 0 64)) ∧
    (w &&& 0x30000000000000000 = 0x30000000000000000 →
      decodeCommand w = .calibrate ((w.extractLsb' 0 48).setWidth 64))

/-- Words of 95_test_vectors.md part 3 decode to the commands they stand for. -/
def Obligations.SpecWordsDecode : Prop :=
  decodeNumber 0x00000000000000000 = .ok .init ∧
  decodeNumber 0x0DEADBEEF00C0FFEE = .ok .init ∧
  decodeNumber 0x10000000000000000 = .ok .poll ∧
  decodeNumber 0x2EEB7F005FF0032C8 = .ok (.decode 0xEEB7F005FF0032C8) ∧
  decodeNumber 0x3FFFF03127E80847C = .ok (.calibrate 0x000003127E80847C)

/-- The codes on the `phase` and `rsp_status` outputs, each its own (R28, R81). -/
def Obligations.OutputCodes : Prop :=
  (Phase.uninitialized.code = 0 ∧ Phase.unlocking.code = 1 ∧ Phase.modeConfigured.code = 2 ∧
    Phase.calibrated.code = 3 ∧ Phase.ready.code = 4) ∧
  (Status.ok.code = 0b00 ∧ Status.transportError.code = 0b01 ∧ Status.readLengthError.code = 0b10 ∧
    Status.notReadyError.code = 0b11) ∧
  ∀ s : State, s.phaseOut.toNat < 5

/-! The datapath. -/

/-- `center` is the exact difference of the two unsigned bytes, in -255 to 255, and is the nine-bit difference of the
zero-extended operands (R132). -/
def Obligations.CenterIsTheExactDifference : Prop :=
  ∀ raw base : Byte,
    (center raw base).toInt = (raw.toNat : Int) - (base.toNat : Int) ∧
    -255 ≤ (center raw base).toInt ∧ (center raw base).toInt ≤ 255 ∧
    center raw base = raw.setWidth 9 - base.setWidth 9

/-- The corner cases of `center`: zero exactly on equal operands, the extremes, never -256, antisymmetric (R133). -/
def Obligations.CenterCornerCases : Prop :=
  (∀ raw base : Byte, center raw base = 0 ↔ raw = base) ∧
  center 255 0 = 0x0FF ∧ center 0 255 = 0x101 ∧
  (∀ raw base : Byte, center raw base ≠ 0x100 ∧ center raw base = - center base raw)

/-- `depth` is zero where the baseline is not below the sample, else their difference, 1 to 255 (R134). -/
def Obligations.DepthIsFlooredAtZero : Prop :=
  ∀ raw base : Byte,
    (raw.toNat ≤ base.toNat → (depth raw base).toNat = 0) ∧
    (base.toNat < raw.toNat →
      (depth raw base).toNat = raw.toNat - base.toNat ∧ 1 ≤ (depth raw base).toNat ∧ (depth raw base).toNat ≤ 255)

/-- `depth` from the nine-bit difference of `center`: its sign bit is set exactly when the sample is below the baseline,
and `depth` is that difference floored at zero (R136). -/
def Obligations.DepthIsCenterFlooredAtZero : Prop :=
  ∀ raw base : Byte,
    ((center raw base).getLsbD 8 = true ↔ raw.toNat < base.toNat) ∧
    depth raw base = (if (center raw base).getLsbD 8 then 0 else (center raw base).setWidth 8) ∧
    ((depth raw base).toNat : Int) = max 0 (center raw base).toInt

/-- The six samples are bytes 0 to 5 of the report, right X before left Y, unchanged (R127, with the packing of R60). -/
def Obligations.SamplesInWireOrder : Prop :=
  ∀ b0 b1 b2 b3 b4 b5 b6 b7 : Byte,
    unpackSamples (b7 ++ b6 ++ b5 ++ b4 ++ b3 ++ b2 ++ b1 ++ b0 : BitVec 64) = ⟨b0, b1, b2, b3, b4, b5⟩ ∧
    ∀ base : Baseline,
      let st := decodeReport (b7 ++ b6 ++ b5 ++ b4 ++ b3 ++ b2 ++ b1 ++ b0 : BitVec 64) base
      st.lx = b0 ∧ st.rx = b1 ∧ st.ly = b2 ∧ st.ry = b3 ∧ st.ltAnalog = b4 ∧ st.rtAnalog = b5

/-- Each lane of the wire vector is its report bit (R128), each lane is inverted (R130), so each button is pressed exactly
when its report bit is 0, whatever the rest of the report and the baseline are (R131). -/
def Obligations.ButtonsAreInvertedWireBits : Prop :=
  (∀ (rep : Report) (button : Button), (unpackButtons rep).getLsbD button.index = rep.getLsbD (repBitOf button)) ∧
  (∀ (w : BitVec 15) (n : Nat), n < 15 → (invert w).getLsbD n = !w.getLsbD n) ∧
  (∀ (rep : Report) (base : Baseline) (button : Button),
    (decodeReport rep base).pressed button = !rep.getLsbD (repBitOf button)) ∧
  (∀ (rep : Report) (base : Baseline), rep.extractLsb' 48 16 = 0xFFFF → (decodeReport rep base).btn = 0x0000) ∧
  (∀ (rep : Report) (base : Baseline), rep.extractLsb' 48 16 = 0x0000 → (decodeReport rep base).btn = 0x7FFF)

/-- The unassigned bit `B[6][0]`, bit 48 of the report, is the one report bit that `decode` ignores (R75, R80). -/
def Obligations.OnlyTheUnassignedBitIsIgnored : Prop :=
  ∀ (rep : Report) (base : Baseline) (k : Nat), k < 64 →
    (decodeReport (rep ^^^ (1 : Report) <<< k) base = decodeReport rep base ↔ k = 48)

/-- Each output of `decode` depends on its own byte, bit and baseline field, and on nothing else (R140). -/
def Obligations.DecodeFieldsDependOnTheirInputs : Prop :=
  ∀ (rep rep' : Report) (base base' : Baseline),
    let st := decodeReport rep base
    let st' := decodeReport rep' base'
    (byteAt rep 0 = byteAt rep' 0 → st.lx = st'.lx ∧ (base.lx = base'.lx → st.lxC = st'.lxC)) ∧
    (byteAt rep 1 = byteAt rep' 1 → st.rx = st'.rx ∧ (base.rx = base'.rx → st.rxC = st'.rxC)) ∧
    (byteAt rep 2 = byteAt rep' 2 → st.ly = st'.ly ∧ (base.ly = base'.ly → st.lyC = st'.lyC)) ∧
    (byteAt rep 3 = byteAt rep' 3 → st.ry = st'.ry ∧ (base.ry = base'.ry → st.ryC = st'.ryC)) ∧
    (byteAt rep 4 = byteAt rep' 4 → st.ltAnalog = st'.ltAnalog ∧ (base.lt = base'.lt → st.ltDepth = st'.ltDepth)) ∧
    (byteAt rep 5 = byteAt rep' 5 → st.rtAnalog = st'.rtAnalog ∧ (base.rt = base'.rt → st.rtDepth = st'.rtDepth)) ∧
    (∀ button : Button, rep.getLsbD (repBitOf button) = rep'.getLsbD (repBitOf button) →
      st.pressed button = st'.pressed button)

/-- Under the baseline taken from a report, that report decodes to zero centered values and zero depths, with its own
samples and buttons (R139). -/
def Obligations.CalibrationZeroesTheReport : Prop :=
  ∀ q : Report,
    let st := decodeReport q (baselineOf q)
    st.lxC = 0 ∧ st.rxC = 0 ∧ st.lyC = 0 ∧ st.ryC = 0 ∧ st.ltDepth = 0 ∧ st.rtDepth = 0 ∧
    st.lx = q.extractLsb' 0 8 ∧ st.rx = q.extractLsb' 8 8 ∧ st.ly = q.extractLsb' 16 8 ∧ st.ry = q.extractLsb' 24 8 ∧
    st.ltAnalog = q.extractLsb' 32 8 ∧ st.rtAnalog = q.extractLsb' 40 8 ∧
    ∀ button : Button, st.pressed button = !q.getLsbD (repBitOf button)

/-! DECODE. -/

/-- `DECODE` in `Ready` completes: it answers the decode of its operand under the baseline and writes no register; no
request is issued, nothing else changes (R125, R138).
Model's form: log entries 2, 3, 4, 5, 6, 7, 8. -/
def Obligations.DecodeCompletesInReady : Prop :=
  ∀ (rep : Report) (s : State), s.phase = .ready →
    ∃ t, exec (.decode rep) s = .next t ∧ sameRegisters s t ∧ sameInputs s t ∧ sameTransport s t ∧ idleNow t ∧
      t.out = [.accepted (.decode rep), .response ⟨.ok, some (decodeReport rep s.bl)⟩]

/-- `DECODE` outside `Ready`: `NotReadyError`, nothing written (R141, R168).
Model's form: log entries 2, 3, 4, 5, 6, 7, 8, 9. -/
def Obligations.DecodeIsRefusedOutsideReady : Prop :=
  ∀ (rep : Report) (s : State), s.phase ≠ .ready →
    ∃ t, exec (.decode rep) s = .next t ∧ refusedNotReady (.decode rep) s t

/-- Two `DECODE` commands with the same operand, one after the other, give the same response (R138).
Model's form: log entry 8. -/
def Obligations.DecodeTwiceGivesTheSame : Prop :=
  ∀ (rep : Report) (s : State),
    ∃ t u, exec (.decode rep) s = .next t ∧ exec (.decode rep) t = .next u ∧
      responsesOf u.out = responsesOf t.out ∧ (responsesOf t.out).length = 1

/-! CALIBRATE. -/

/-- `CALIBRATE` in `Ready` completes: the six baseline fields are bytes 0 to 5 of the operand, CS_VALID is cleared, PHASE
stays `Ready`, no request is issued; `CS` is without value (R155, R156, R157).
Model's form: log entries 3, 4, 5, 6, 7, 8, 9. -/
def Obligations.CalibrateCompletesInReady : Prop :=
  ∀ (rep : Report) (s : State), s.phase = .ready →
    ∃ t, exec (.calibrate rep) s = .next t ∧
      t.bl.lx = rep.extractLsb' 0 8 ∧ t.bl.rx = rep.extractLsb' 8 8 ∧ t.bl.ly = rep.extractLsb' 16 8 ∧
      t.bl.ry = rep.extractLsb' 24 8 ∧ t.bl.lt = rep.extractLsb' 32 8 ∧ t.bl.rt = rep.extractLsb' 40 8 ∧
      t.csValid = false ∧ t.phase = .ready ∧ sameInputs s t ∧ sameTransport s t ∧ idleNow t ∧
      t.out = [.accepted (.calibrate rep), .response ⟨.ok, none⟩]

/-- `CALIBRATE` outside `Ready`: `NotReadyError`, nothing written (R158, the spec's own choice D15; R168).
Model's form: log entries 2, 3, 4, 5, 6, 7, 8, 9. -/
def Obligations.CalibrateIsRefusedOutsideReady : Prop :=
  ∀ (rep : Report) (s : State), s.phase ≠ .ready →
    ∃ t, exec (.calibrate rep) s = .next t ∧ refusedNotReady (.calibrate rep) s t

/-- After `CALIBRATE q`, `DECODE r` with any `r` that has `q`'s bytes 0 to 5 answers zero centered values and zero depths
(R159(b), R139).
Model's form: log entry 8. -/
def Obligations.CalibrateThenDecodeReadsZero : Prop :=
  ∀ (q r : Report) (s : State), s.phase = .ready → q.extractLsb' 0 48 = r.extractLsb' 0 48 →
    ∃ t u st, exec (.calibrate q) s = .next t ∧ exec (.decode r) t = .next u ∧
      responsesOf u.out = [⟨.ok, some st⟩] ∧
      st.lxC = 0 ∧ st.rxC = 0 ∧ st.lyC = 0 ∧ st.ryC = 0 ∧ st.ltDepth = 0 ∧ st.rtDepth = 0 ∧
      st.btn = (decodeReport r t.bl).btn

/-! POLL. -/

/-- `POLL` in `Ready`, with the selector write answered `Ok` and the read answered with eight bytes, completes: `CS` is
replaced as a whole by the decode, CS_VALID becomes 1, the response carries the new `CS`; two requests in order with the
settle between them; PHASE and `BL` stay (R112, R114, R116).
Model's form: log entries 2, 3, 4, 5, 6, 7, 8, 10, 11. -/
def Obligations.PollCompletes : Prop :=
  ∀ (s : State) (n : Fin 9) (d rep : Report) (rest : List Answer),
    s.phase = .ready → coming s = .ok n d :: .ok 8 rep :: rest → 6 ≤ s.burst →
    ∃ t, exec .poll s = .next t ∧ t.cs = decodeReport rep s.bl ∧ t.csValid = true ∧
      t.phase = .ready ∧ t.bl = s.bl ∧ t.fresh = s.fresh ∧ sameInputs s t ∧ idleNow t ∧ coming t = rest ∧
      t.out = [.accepted .poll, .request selectorWrite, .answer (.ok n d), .settle 500, .request reportRead,
        .answer (.ok 8 rep), .response ⟨.ok, some (decodeReport rep s.bl)⟩]

/-- A short read in `POLL`: `ReadLengthError`, and `CS`, CS_VALID and all other registers keep their values (R113).
Model's form: log entries 2, 3, 4, 5, 6, 7, 8, 9, 11. -/
def Obligations.PollShortReadRetainsState : Prop :=
  ∀ (s : State) (n m : Fin 9) (d d' : Report) (rest : List Answer),
    s.phase = .ready → coming s = .ok n d :: .ok m d' :: rest → m.val < 8 → 5 ≤ s.burst →
    ∃ t, exec .poll s = .next t ∧ sameRegisters s t ∧ sameInputs s t ∧ idleNow t ∧ coming t = rest ∧
      requestsOf t.out = pollRequests ∧ responsesOf t.out = [⟨.readLengthError, none⟩]

/-- A transport failure in `POLL`: `TransportError`, every register keeps its value, and after a failed selector write
the read is not issued (R115).
Model's form: log entries 2, 3, 4, 5, 6, 7, 8, 9. -/
def Obligations.PollTransportErrorRetainsState : Prop :=
  ∀ (s : State) (rest : List Answer), s.phase = .ready → 5 ≤ s.burst →
    (coming s = .err :: rest →
      ∃ t, exec .poll s = .next t ∧ sameRegisters s t ∧ sameInputs s t ∧ idleNow t ∧ coming t = rest ∧
        requestsOf t.out = [selectorWrite] ∧ responsesOf t.out = [⟨.transportError, none⟩]) ∧
    (∀ n d, coming s = .ok n d :: .err :: rest →
      ∃ t, exec .poll s = .next t ∧ sameRegisters s t ∧ sameInputs s t ∧ idleNow t ∧ coming t = rest ∧
        requestsOf t.out = pollRequests ∧ responsesOf t.out = [⟨.transportError, none⟩])

/-- `POLL` outside `Ready`: `NotReadyError` at once; no request, no settle, no register written (R111, R168).
Model's form: log entries 2, 3, 4, 5, 6, 7, 8, 9. -/
def Obligations.PollIsRefusedOutsideReady : Prop :=
  ∀ s : State, s.phase ≠ .ready → ∃ t, exec .poll s = .next t ∧ refusedNotReady .poll s t

/-- The frame of `POLL`, for every answer and every length of the turn: PHASE, `BL` and the inputs stay; `CS` and CS_VALID
change only together with an `OK` response that carries the new `CS`; of the answers only a first part is taken
(R110, R116).
Model's form: log entries 2, 3, 4, 5, 6, 7, 8. -/
def Obligations.PollFrame : Prop :=
  ∀ s t : State, exec .poll s = .next t →
    t.phase = s.phase ∧ t.bl = s.bl ∧ t.fresh = s.fresh ∧ sameInputs s t ∧ (∃ k, coming t = (coming s).drop k) ∧
    ((t.cs = s.cs ∧ t.csValid = s.csValid) ∨
      (t.csValid = true ∧ responsesOf t.out = [⟨.ok, some t.cs⟩]))

/-! INITIALIZE. -/

/-- `INITIALIZE`, with all five requests answered `Ok` and eight bytes read, completes from every phase: `Ready`, the
baseline from bytes 0 to 5, CS_VALID 0, exactly the five requests in order, `OK` (R94, R95).
Model's form: log entries 3, 4, 5, 6, 7, 8, 9, 11. -/
def Obligations.InitializeCompletes : Prop :=
  ∀ (s : State) (n1 n2 n3 n4 : Fin 9) (d1 d2 d3 d4 rep : Report) (rest : List Answer),
    coming s = .ok n1 d1 :: .ok n2 d2 :: .ok n3 d3 :: .ok n4 d4 :: .ok 8 rep :: rest → 15 ≤ s.burst →
    ∃ t, exec .init s = .next t ∧ t.phase = .ready ∧ t.csValid = false ∧
      t.bl.lx = rep.extractLsb' 0 8 ∧ t.bl.rx = rep.extractLsb' 8 8 ∧ t.bl.ly = rep.extractLsb' 16 8 ∧
      t.bl.ry = rep.extractLsb' 24 8 ∧ t.bl.lt = rep.extractLsb' 32 8 ∧ t.bl.rt = rep.extractLsb' 40 8 ∧
      sameInputs s t ∧ idleNow t ∧ coming t = rest ∧
      requestsOf t.out = initRequests ∧ responsesOf t.out = [⟨.ok, none⟩]

/-- Everything a successful `INITIALIZE` shows on its channels, in order: the phases where R92 has them, the settle of at
least 1 ms after each of the three writes and of 500 us before the read (R92, R196, R197).
Model's form: log entries 4, 5, 7, 8, 9, 10, 11. -/
def Obligations.InitializeEventOrder : Prop :=
  ∀ (s : State) (n1 n2 n3 n4 : Fin 9) (d1 d2 d3 d4 rep : Report) (rest : List Answer),
    coming s = .ok n1 d1 :: .ok n2 d2 :: .ok n3 d3 :: .ok n4 d4 :: .ok 8 rep :: rest → 15 ≤ s.burst →
    ∃ t, exec .init s = .next t ∧ t.out =
      [.accepted .init, .phase .unlocking,
       .request (.write 0x52 0xF0 (some 0x55)), .answer (.ok n1 d1), .settle 1000,
       .request (.write 0x52 0xFB (some 0x00)), .answer (.ok n2 d2), .settle 1000,
       .request (.write 0x52 0xFE (some 0x03)), .answer (.ok n3 d3), .phase .modeConfigured, .settle 1000,
       .request (.write 0x52 0x00 none), .answer (.ok n4 d4), .settle 500,
       .request (.read 0x52 0x00 8), .answer (.ok 8 rep), .phase .calibrated,
       .phase .ready, .response ⟨.ok, none⟩]

/-- The failing rows of the atomic table: after any number below five of `Ok` answers an `Err` ends the command with
`TransportError`, and an eighth byte missing ends it with `ReadLengthError`; PHASE is `Uninitialized`, CS_VALID 0, no
later request is issued (R93, R95).
Model's form: log entries 3, 4, 5, 6, 7, 8, 9. -/
def Obligations.InitializeFailureRows : Prop :=
  ∀ (s : State) (oks rest : List Answer), 14 ≤ s.burst → (∀ a ∈ oks, isOk a = true) →
    (oks.length ≤ 4 → coming s = oks ++ .err :: rest →
      ∃ t, exec .init s = .next t ∧ t.phase = .uninitialized ∧ t.csValid = false ∧ sameInputs s t ∧ idleNow t ∧
        coming t = rest ∧ requestsOf t.out = initRequests.take (oks.length + 1) ∧
        responsesOf t.out = [⟨.transportError, none⟩]) ∧
    (∀ n d, n.val < 8 → oks.length = 4 → coming s = oks ++ .ok n d :: rest →
      ∃ t, exec .init s = .next t ∧ t.phase = .uninitialized ∧ t.csValid = false ∧ sameInputs s t ∧ idleNow t ∧
        coming t = rest ∧ requestsOf t.out = initRequests ∧ responsesOf t.out = [⟨.readLengthError, none⟩])

/-- The first step of `INITIALIZE`, in a turn of one step, from every phase: PHASE is `Unlocking` and CS_VALID is 0, no
request is issued yet (R91, R92 step I0).
Model's form: log entries 3, 4, 5, 6, 7, 8. -/
def Obligations.InitializeBeginsUnlocking : Prop :=
  ∀ s : State, s.burst = 0 →
    ∃ t, exec .init s = .next t ∧ t.phase = .unlocking ∧ t.csValid = false ∧ t.micro = .i1 ∧ t.inflight = none ∧
      t.out = [.accepted .init, .phase .unlocking] ∧ sameInputs s t ∧ sameTransport s t

/-- The frame of `INITIALIZE`, for every answer and every length of the turn: the inputs stay, CS_VALID is 0, of the
answers only a first part is taken (R90, R92).
Model's form: log entries 3, 4, 5, 6, 7. -/
def Obligations.InitializeFrame : Prop :=
  ∀ s t : State, exec .init s = .next t →
    t.csValid = false ∧ sameInputs s t ∧ ∃ k, coming t = (coming s).drop k

/-! The transport. -/

/-- The block issues no request but those of the address map, whatever the state (R56).
Model's form: log entry 8. -/
def Obligations.RequestsAreOfTheAddressMap : Prop :=
  ∀ s t : State, step s = .next t → ∀ r ∈ requestsOf t.out,
    r = .write 0x52 0xF0 (some 0x55) ∨ r = .write 0x52 0xFB (some 0x00) ∨ r = .write 0x52 0xFE (some 0x03) ∨
    r = .write 0x52 0x00 none ∨ r = .read 0x52 0x00 8

/-- Through every turn but a reset, a request is issued only when none is outstanding, and an answer is taken only for an
outstanding request (R36, R62).
Model's form: log entries 6, 8. -/
def Obligations.OneRequestAtATime : Prop :=
  ∀ s t : State, StateInv s → s.rst = false → step s = .next t → channelPath s.inflight t.out t.inflight

/-- What must have happened before each request but the first, seen in turns of one step: the block comes to the micro-step
that issues it only from the settle before it, which takes its bound, and to that settle only from the write before it,
answered `Ok` (R62(b), R64, R196, R197).
Model's form: log entries 6, 7, 8, 10. -/
def Obligations.SettlesSeparateRequests : Prop :=
  ∀ s t : State, s.rst = false → s.burst = 0 → step s = .next t →
    (t.micro = .i2 → s.micro ≠ .i2 → s.micro = .i1 ∧ ∃ n d, .answer (.ok n d) ∈ t.out) ∧
    (t.micro = .i3 → s.micro ≠ .i3 → s.micro = .i2 ∧ .settle 1000 ∈ t.out) ∧
    (t.micro = .i4 → s.micro ≠ .i4 → s.micro = .i3 ∧ ∃ n d, .answer (.ok n d) ∈ t.out) ∧
    (t.micro = .i5 → s.micro ≠ .i5 → s.micro = .i4 ∧ .settle 1000 ∈ t.out) ∧
    (t.micro = .i6 → s.micro ≠ .i6 → s.micro = .i5 ∧ ∃ n d, .answer (.ok n d) ∈ t.out) ∧
    (t.micro = .i7 .select → s.micro ≠ .i7 .select → s.micro = .i6 ∧ .settle 1000 ∈ t.out) ∧
    (t.micro = .i7 .settle → s.micro ≠ .i7 .settle → s.micro = .i7 .select ∧ ∃ n d, .answer (.ok n d) ∈ t.out) ∧
    (t.micro = .i7 .read → s.micro ≠ .i7 .read → s.micro = .i7 .settle ∧ .settle 500 ∈ t.out) ∧
    (t.micro = .poll .settle → s.micro ≠ .poll .settle →
      s.micro = .poll .select ∧ ∃ n d, .answer (.ok n d) ∈ t.out) ∧
    (t.micro = .poll .read → s.micro ≠ .poll .read → s.micro = .poll .settle ∧ .settle 500 ∈ t.out)

/-- A request never answered: however many turns pass, no response is delivered, the command does not end and no register
changes; there is no timeout (R177, R204). Only reset ends it.
Model's form: log entries 4, 5, 6, 8, 12. -/
def Obligations.UnansweredRequestWaitsForEver : Prop :=
  ∀ (s : State) (r : Request), s.rst = false → s.micro.request = some r → s.inflight = some r → coming s = [] →
    (∀ k : Nat, Sys2Proof.core.run (k + 1) s = .next { s with out := [] }) ∧
    ∃ t, step { s with rst := true } = .next t ∧ t.micro = .idle ∧ t.inflight = none

/-- A command whose first request is not answered stays in progress with that request outstanding (R31(c), R177).
Model's form: log entries 2, 4, 5, 7, 8, 12. -/
def Obligations.CommandsWaitForTheirFirstAnswer : Prop :=
  ∀ s : State, coming s = [] → 1 ≤ s.burst →
    (∃ t, exec .init s = .next t ∧ t.phase = .unlocking ∧ t.micro = .i1 ∧ t.inflight = some unlockAWrite ∧
      requestsOf t.out = [unlockAWrite] ∧ responsesOf t.out = []) ∧
    (s.phase = .ready → ∃ t, exec .poll s = .next t ∧ sameRegisters s t ∧ t.micro = .poll .select ∧
      t.inflight = some selectorWrite ∧ requestsOf t.out = [selectorWrite] ∧ responsesOf t.out = [])

/-! Reset. -/

/-- A step with `rst` = 1, whatever is in progress: the block takes the reset state, delivers no response and issues no
request; the outstanding request is forgotten (R191, R192).
Model's form: log entries 3, 4, 5, 6, 8. -/
def Obligations.ResetTakesTheResetState : Prop :=
  ∀ s : State, s.rst = true →
    ∃ t, step s = .next t ∧ t.phase = .uninitialized ∧ t.csValid = false ∧ idleNow t ∧ t.cmdReady = true ∧
      t.rsp = none ∧ requestsOf t.out = [] ∧ t.cmds = s.cmds ∧ t.answers = s.answers

/-- The answer to a request that reset made the block forget is ignored, whether it is there already or comes later: what
the block will take is what comes after it (R192).
Model's form: log entries 4, 5, 6. -/
def Obligations.LateAnswerIsIgnored : Prop :=
  ∀ (s t : State) (r : Request), s.rst = true → s.inflight = some r → step s = .next t →
    (∀ late rest, coming s = late :: rest → coming t = rest) ∧
    (s.answers.length = s.stale → ∀ late next, coming (t.deliver late) = [] ∧
      coming ((t.deliver late).deliver next) = [next])

/-- Between commands the block does nothing until a command is accepted (R191): without a command no number of steps
changes a register or issues a request.
Model's form: log entries 3, 6, 8. -/
def Obligations.IdleBlockDoesNothing : Prop :=
  ∀ s : State, s.rst = false → s.micro = .idle → s.cmds = [] →
    ∀ k : Nat, Sys2Proof.core.run (k + 1) s = .next { s with out := [] }

/-- The machine after power-up: the values of R38 that the spec gives.
Model's form: log entry 8. -/
def Obligations.PowerUpState : Prop :=
  State.reset.phase = .uninitialized ∧ State.reset.csValid = false ∧ State.reset.micro = .idle ∧
  State.reset.inflight = none ∧ State.reset.cmdReady = true ∧ State.reset.rsp = none ∧ State.reset.phaseOut = 0

/-! Steps, turns and commands. -/

/-- An idle block that is not reset runs the instruction its command word decodes to; the word leaves the channel.
Model's form: log entries 3, 6. -/
def Obligations.StepRunsTheDecodedCommand : Prop :=
  ∀ (s : State) (w : CommandWord) (rest : List CommandWord) (i : Instr),
    s.rst = false → s.micro = .idle → s.cmds = w :: rest → decodeCommand w = i →
    step s = exec i { s with cmds := rest }

/-- While a command is in progress no other is accepted, and the command channel stays as it is (R33, R199).
Model's form: log entries 3, 6, 8. -/
def Obligations.BusyBlockAcceptsNothing : Prop :=
  ∀ s t : State, s.rst = false → s.micro ≠ .idle → step s = .next t →
    t.cmds = s.cmds ∧ ∀ i, .accepted i ∉ t.out

/-- Each turn delivers at most one response; a response ends the command; and a turn in which a command ends without reset
delivers one (R34, R172).
Model's form: log entries 3, 6, 8. -/
def Obligations.OneResponseEndsACommand : Prop :=
  ∀ s t : State, s.rst = false → step s = .next t →
    (responsesOf t.out).length ≤ 1 ∧ (responsesOf t.out ≠ [] → t.micro = .idle) ∧
    (s.micro ≠ .idle ∨ s.cmds ≠ [] → t.micro = .idle → (responsesOf t.out).length = 1)

/-- A command reports only the statuses the table allows it, in the turn that accepts it and in later ones (R169).
Model's form: log entries 6, 8. -/
def Obligations.StatusesByCommand : Prop :=
  (∀ (i : Instr) (s t : State), exec i s = .next t → ∀ r ∈ responsesOf t.out, mayReport i r.status = true) ∧
  (∀ (i : Instr) (s t : State), s.rst = false → s.micro.command = some i → step s = .next t →
    ∀ r ∈ responsesOf t.out, mayReport i r.status = true ∧ r.status ≠ .notReadyError)

/-- Two turns, the first of which accepts a command or goes on with one and leaves it in progress, do what one turn of as
many steps does: how the environment divides a command into turns (the model's choice, log entry 7) changes nothing but
when outputs are seen (R7). -/
def Obligations.TurnsCompose : Prop :=
  ∀ (s t u : State) (m n : Nat), s.rst = false →
    step (s.setBurst m) = .next t → t.micro ≠ .idle → step (t.setBurst n) = .next u →
    ∃ v, step (s.setBurst (m + n + 1)) = .next v ∧ v.out = t.out ++ u.out ∧
      { v with out := u.out, burst := n } = u

/-! Invariants. -/

/-- Every step keeps the invariant of the machine (R29, R30, R31). -/
def Obligations.InvariantIsKept : Prop :=
  ∀ s t : State, StateInv s → step s = .next t → StateInv t

/-- The invariant holds after reset. -/
def Obligations.InvariantHoldsAtReset : Prop := StateInv State.reset

/-- Through every turn but a reset, whatever its length, PHASE moves along the transitions of the table, one at a time,
and every value it takes is seen (R29, R35).
Model's form: log entries 6, 8. -/
def Obligations.PhaseFollowsTheTable : Prop :=
  ∀ s t : State, StateInv s → s.rst = false → step s = .next t → phasePath s.phase (phasesOf t.out) t.phase

/-- `CS` keeps its content, or it is without value, or it holds the decode of the report just read under the current
baseline, written as a whole with CS_VALID by a `POLL` that answers `OK` with it (R26, R27, R114).
Model's form: log entry 8. -/
def Obligations.CsIsWrittenOnlyByPoll : Prop :=
  ∀ s t : State, StateInv s → step s = .next t →
    (t.cs = s.cs ∧ t.csValid = s.csValid) ∨ t.csValid = false ∨
    (t.csValid = true ∧ t.phase = .ready ∧ responsesOf t.out = [⟨.ok, some t.cs⟩] ∧
      ∃ rep, t.cs = decodeReport rep t.bl ∧ (s.micro = .p4 rep ∨ .answer (.ok 8 rep) ∈ t.out))

/-- `BL` keeps its content, or it is without value (PHASE neither `Calibrated` nor `Ready`), or it holds bytes 0 to 5 of the
report of a `CALIBRATE` just accepted or of the report just read (R21, R30(a)).
Model's form: log entry 8. -/
def Obligations.BaselineIsWrittenOnlyByCalibration : Prop :=
  ∀ s t : State, StateInv s → step s = .next t →
    t.bl = s.bl ∨ (t.phase ≠ .calibrated ∧ t.phase ≠ .ready) ∨
    ∃ rep, t.bl = baselineOf rep ∧ (.accepted (.calibrate rep) ∈ t.out ∨ .answer (.ok 8 rep) ∈ t.out)

/-- No step reads what the spec leaves unspecified: two states that differ only in `CS` while CS_VALID is 0, or in `BL`
outside `Calibrated` and `Ready`, step to states that differ only so, with the same outputs (R21, R27, R38).
Model's form: log entries 2, 8. -/
def Obligations.UnspecifiedContentsAreNeverRead : Prop :=
  ∀ s s' t : State, StateInv s → alikeWhereSpecified s s' → step s = .next t →
    ∃ t', step s' = .next t' ∧ alikeWhereSpecified t t' ∧ t'.out = t.out
end

