-- ==== Sys2Proof/Laws/State.lean ====
section
/-! SUPPORT. One lemma per field of the state for each shared update: what the field holds after it. Every one is true by
definition and tagged for simp, so that no proof unfolds a record update. -/

namespace Sys2Proof.Machine

@[simp] theorem emit_phase (e : Event) (s : State) : (emit e s).phase = s.phase := rfl
@[simp] theorem emit_csValid (e : Event) (s : State) : (emit e s).csValid = s.csValid := rfl
@[simp] theorem emit_bl (e : Event) (s : State) : (emit e s).bl = s.bl := rfl
@[simp] theorem emit_cs (e : Event) (s : State) : (emit e s).cs = s.cs := rfl
@[simp] theorem emit_micro (e : Event) (s : State) : (emit e s).micro = s.micro := rfl
@[simp] theorem emit_inflight (e : Event) (s : State) : (emit e s).inflight = s.inflight := rfl
@[simp] theorem emit_cmds (e : Event) (s : State) : (emit e s).cmds = s.cmds := rfl
@[simp] theorem emit_answers (e : Event) (s : State) : (emit e s).answers = s.answers := rfl
@[simp] theorem emit_stale (e : Event) (s : State) : (emit e s).stale = s.stale := rfl
@[simp] theorem emit_rst (e : Event) (s : State) : (emit e s).rst = s.rst := rfl
@[simp] theorem emit_burst (e : Event) (s : State) : (emit e s).burst = s.burst := rfl
@[simp] theorem emit_out (e : Event) (s : State) : (emit e s).out = s.out ++ [e] := rfl
@[simp] theorem emit_fresh (e : Event) (s : State) : (emit e s).fresh = s.fresh := rfl

@[simp] theorem setPhase_phase (p : Phase) (s : State) : (setPhase p s).phase = p := rfl
@[simp] theorem setPhase_csValid (p : Phase) (s : State) : (setPhase p s).csValid = s.csValid := rfl
@[simp] theorem setPhase_bl (p : Phase) (s : State) : (setPhase p s).bl = s.bl := rfl
@[simp] theorem setPhase_cs (p : Phase) (s : State) : (setPhase p s).cs = s.cs := rfl
@[simp] theorem setPhase_micro (p : Phase) (s : State) : (setPhase p s).micro = s.micro := rfl
@[simp] theorem setPhase_inflight (p : Phase) (s : State) : (setPhase p s).inflight = s.inflight := rfl
@[simp] theorem setPhase_cmds (p : Phase) (s : State) : (setPhase p s).cmds = s.cmds := rfl
@[simp] theorem setPhase_answers (p : Phase) (s : State) : (setPhase p s).answers = s.answers := rfl
@[simp] theorem setPhase_stale (p : Phase) (s : State) : (setPhase p s).stale = s.stale := rfl
@[simp] theorem setPhase_rst (p : Phase) (s : State) : (setPhase p s).rst = s.rst := rfl
@[simp] theorem setPhase_burst (p : Phase) (s : State) : (setPhase p s).burst = s.burst := rfl
@[simp] theorem setPhase_out (p : Phase) (s : State) : (setPhase p s).out = s.out ++ [.phase p] := rfl
@[simp] theorem setPhase_fresh (p : Phase) (s : State) : (setPhase p s).fresh = s.fresh := rfl

@[simp] theorem goto_phase (m : Micro) (s : State) : (goto m s).phase = s.phase := rfl
@[simp] theorem goto_csValid (m : Micro) (s : State) : (goto m s).csValid = s.csValid := rfl
@[simp] theorem goto_bl (m : Micro) (s : State) : (goto m s).bl = s.bl := rfl
@[simp] theorem goto_cs (m : Micro) (s : State) : (goto m s).cs = s.cs := rfl
@[simp] theorem goto_micro (m : Micro) (s : State) : (goto m s).micro = m := rfl
@[simp] theorem goto_inflight (m : Micro) (s : State) : (goto m s).inflight = s.inflight := rfl
@[simp] theorem goto_cmds (m : Micro) (s : State) : (goto m s).cmds = s.cmds := rfl
@[simp] theorem goto_answers (m : Micro) (s : State) : (goto m s).answers = s.answers := rfl
@[simp] theorem goto_stale (m : Micro) (s : State) : (goto m s).stale = s.stale := rfl
@[simp] theorem goto_rst (m : Micro) (s : State) : (goto m s).rst = s.rst := rfl
@[simp] theorem goto_burst (m : Micro) (s : State) : (goto m s).burst = s.burst := rfl
@[simp] theorem goto_out (m : Micro) (s : State) : (goto m s).out = s.out := rfl
@[simp] theorem goto_fresh (m : Micro) (s : State) : (goto m s).fresh = s.fresh := rfl

@[simp] theorem accept_phase (i : Instr) (s : State) : (accept i s).phase = s.phase := rfl
@[simp] theorem accept_csValid (i : Instr) (s : State) : (accept i s).csValid = s.csValid := rfl
@[simp] theorem accept_bl (i : Instr) (s : State) : (accept i s).bl = s.bl := rfl
@[simp] theorem accept_cs (i : Instr) (s : State) : (accept i s).cs = s.cs := rfl
@[simp] theorem accept_micro (i : Instr) (s : State) : (accept i s).micro = .idle := rfl
@[simp] theorem accept_inflight (i : Instr) (s : State) : (accept i s).inflight = none := rfl
@[simp] theorem accept_cmds (i : Instr) (s : State) : (accept i s).cmds = s.cmds := rfl
@[simp] theorem accept_answers (i : Instr) (s : State) : (accept i s).answers = s.answers := rfl
@[simp] theorem accept_stale (i : Instr) (s : State) : (accept i s).stale = s.stale := rfl
@[simp] theorem accept_rst (i : Instr) (s : State) : (accept i s).rst = s.rst := rfl
@[simp] theorem accept_burst (i : Instr) (s : State) : (accept i s).burst = s.burst := rfl
@[simp] theorem accept_out (i : Instr) (s : State) : (accept i s).out = [.accepted i] := rfl
@[simp] theorem accept_fresh (i : Instr) (s : State) : (accept i s).fresh = s.fresh := rfl

@[simp] theorem respond_phase (st : Status) (v : Option ControllerState) (s : State) : (respond st v s).phase = s.phase := rfl
@[simp] theorem respond_csValid (st : Status) (v : Option ControllerState) (s : State) : (respond st v s).csValid = s.csValid := rfl
@[simp] theorem respond_bl (st : Status) (v : Option ControllerState) (s : State) : (respond st v s).bl = s.bl := rfl
@[simp] theorem respond_cs (st : Status) (v : Option ControllerState) (s : State) : (respond st v s).cs = s.cs := rfl
@[simp] theorem respond_micro (st : Status) (v : Option ControllerState) (s : State) : (respond st v s).micro = .idle := rfl
@[simp] theorem respond_inflight (st : Status) (v : Option ControllerState) (s : State) : (respond st v s).inflight = s.inflight := rfl
@[simp] theorem respond_cmds (st : Status) (v : Option ControllerState) (s : State) : (respond st v s).cmds = s.cmds := rfl
@[simp] theorem respond_answers (st : Status) (v : Option ControllerState) (s : State) : (respond st v s).answers = s.answers := rfl
@[simp] theorem respond_stale (st : Status) (v : Option ControllerState) (s : State) : (respond st v s).stale = s.stale := rfl
@[simp] theorem respond_rst (st : Status) (v : Option ControllerState) (s : State) : (respond st v s).rst = s.rst := rfl
@[simp] theorem respond_burst (st : Status) (v : Option ControllerState) (s : State) : (respond st v s).burst = s.burst := rfl
@[simp] theorem respond_out (st : Status) (v : Option ControllerState) (s : State) : (respond st v s).out = s.out ++ [.response ⟨st, v⟩] := rfl
@[simp] theorem respond_fresh (st : Status) (v : Option ControllerState) (s : State) : (respond st v s).fresh = s.fresh := rfl

@[simp] theorem discardCs_phase (s : State) : (discardCs s).phase = s.phase := rfl
@[simp] theorem discardCs_csValid (s : State) : (discardCs s).csValid = false := rfl
@[simp] theorem discardCs_bl (s : State) : (discardCs s).bl = s.bl := rfl
@[simp] theorem discardCs_cs (s : State) : (discardCs s).cs = Config.freeControllerState s.fresh := rfl
@[simp] theorem discardCs_micro (s : State) : (discardCs s).micro = s.micro := rfl
@[simp] theorem discardCs_inflight (s : State) : (discardCs s).inflight = s.inflight := rfl
@[simp] theorem discardCs_cmds (s : State) : (discardCs s).cmds = s.cmds := rfl
@[simp] theorem discardCs_answers (s : State) : (discardCs s).answers = s.answers := rfl
@[simp] theorem discardCs_stale (s : State) : (discardCs s).stale = s.stale := rfl
@[simp] theorem discardCs_rst (s : State) : (discardCs s).rst = s.rst := rfl
@[simp] theorem discardCs_burst (s : State) : (discardCs s).burst = s.burst := rfl
@[simp] theorem discardCs_out (s : State) : (discardCs s).out = s.out := rfl
@[simp] theorem discardCs_fresh (s : State) : (discardCs s).fresh = s.fresh + 1 := rfl

@[simp] theorem discardBl_phase (s : State) : (discardBl s).phase = s.phase := rfl
@[simp] theorem discardBl_csValid (s : State) : (discardBl s).csValid = s.csValid := rfl
@[simp] theorem discardBl_bl (s : State) : (discardBl s).bl = Config.freeBaseline s.fresh := rfl
@[simp] theorem discardBl_cs (s : State) : (discardBl s).cs = s.cs := rfl
@[simp] theorem discardBl_micro (s : State) : (discardBl s).micro = s.micro := rfl
@[simp] theorem discardBl_inflight (s : State) : (discardBl s).inflight = s.inflight := rfl
@[simp] theorem discardBl_cmds (s : State) : (discardBl s).cmds = s.cmds := rfl
@[simp] theorem discardBl_answers (s : State) : (discardBl s).answers = s.answers := rfl
@[simp] theorem discardBl_stale (s : State) : (discardBl s).stale = s.stale := rfl
@[simp] theorem discardBl_rst (s : State) : (discardBl s).rst = s.rst := rfl
@[simp] theorem discardBl_burst (s : State) : (discardBl s).burst = s.burst := rfl
@[simp] theorem discardBl_out (s : State) : (discardBl s).out = s.out := rfl
@[simp] theorem discardBl_fresh (s : State) : (discardBl s).fresh = s.fresh + 1 := rfl

@[simp] theorem calibrateFrom_phase (rep : Report) (s : State) : (calibrateFrom rep s).phase = s.phase := rfl
@[simp] theorem calibrateFrom_csValid (rep : Report) (s : State) : (calibrateFrom rep s).csValid = s.csValid := rfl
@[simp] theorem calibrateFrom_bl (rep : Report) (s : State) : (calibrateFrom rep s).bl = baselineOf rep := rfl
@[simp] theorem calibrateFrom_cs (rep : Report) (s : State) : (calibrateFrom rep s).cs = s.cs := rfl
@[simp] theorem calibrateFrom_micro (rep : Report) (s : State) : (calibrateFrom rep s).micro = s.micro := rfl
@[simp] theorem calibrateFrom_inflight (rep : Report) (s : State) : (calibrateFrom rep s).inflight = s.inflight := rfl
@[simp] theorem calibrateFrom_cmds (rep : Report) (s : State) : (calibrateFrom rep s).cmds = s.cmds := rfl
@[simp] theorem calibrateFrom_answers (rep : Report) (s : State) : (calibrateFrom rep s).answers = s.answers := rfl
@[simp] theorem calibrateFrom_stale (rep : Report) (s : State) : (calibrateFrom rep s).stale = s.stale := rfl
@[simp] theorem calibrateFrom_rst (rep : Report) (s : State) : (calibrateFrom rep s).rst = s.rst := rfl
@[simp] theorem calibrateFrom_burst (rep : Report) (s : State) : (calibrateFrom rep s).burst = s.burst := rfl
@[simp] theorem calibrateFrom_out (rep : Report) (s : State) : (calibrateFrom rep s).out = s.out := rfl
@[simp] theorem calibrateFrom_fresh (rep : Report) (s : State) : (calibrateFrom rep s).fresh = s.fresh := rfl

@[simp] theorem storeCs_phase (st : ControllerState) (s : State) : (storeCs st s).phase = s.phase := rfl
@[simp] theorem storeCs_csValid (st : ControllerState) (s : State) : (storeCs st s).csValid = true := rfl
@[simp] theorem storeCs_bl (st : ControllerState) (s : State) : (storeCs st s).bl = s.bl := rfl
@[simp] theorem storeCs_cs (st : ControllerState) (s : State) : (storeCs st s).cs = st := rfl
@[simp] theorem storeCs_micro (st : ControllerState) (s : State) : (storeCs st s).micro = s.micro := rfl
@[simp] theorem storeCs_inflight (st : ControllerState) (s : State) : (storeCs st s).inflight = s.inflight := rfl
@[simp] theorem storeCs_cmds (st : ControllerState) (s : State) : (storeCs st s).cmds = s.cmds := rfl
@[simp] theorem storeCs_answers (st : ControllerState) (s : State) : (storeCs st s).answers = s.answers := rfl
@[simp] theorem storeCs_stale (st : ControllerState) (s : State) : (storeCs st s).stale = s.stale := rfl
@[simp] theorem storeCs_rst (st : ControllerState) (s : State) : (storeCs st s).rst = s.rst := rfl
@[simp] theorem storeCs_burst (st : ControllerState) (s : State) : (storeCs st s).burst = s.burst := rfl
@[simp] theorem storeCs_out (st : ControllerState) (s : State) : (storeCs st s).out = s.out := rfl
@[simp] theorem storeCs_fresh (st : ControllerState) (s : State) : (storeCs st s).fresh = s.fresh := rfl

@[simp] theorem takeCommand_phase (rest : List CommandWord) (s : State) : (takeCommand rest s).phase = s.phase := rfl
@[simp] theorem takeCommand_csValid (rest : List CommandWord) (s : State) : (takeCommand rest s).csValid = s.csValid := rfl
@[simp] theorem takeCommand_bl (rest : List CommandWord) (s : State) : (takeCommand rest s).bl = s.bl := rfl
@[simp] theorem takeCommand_cs (rest : List CommandWord) (s : State) : (takeCommand rest s).cs = s.cs := rfl
@[simp] theorem takeCommand_micro (rest : List CommandWord) (s : State) : (takeCommand rest s).micro = s.micro := rfl
@[simp] theorem takeCommand_inflight (rest : List CommandWord) (s : State) : (takeCommand rest s).inflight = s.inflight := rfl
@[simp] theorem takeCommand_cmds (rest : List CommandWord) (s : State) : (takeCommand rest s).cmds = rest := rfl
@[simp] theorem takeCommand_answers (rest : List CommandWord) (s : State) : (takeCommand rest s).answers = s.answers := rfl
@[simp] theorem takeCommand_stale (rest : List CommandWord) (s : State) : (takeCommand rest s).stale = s.stale := rfl
@[simp] theorem takeCommand_rst (rest : List CommandWord) (s : State) : (takeCommand rest s).rst = s.rst := rfl
@[simp] theorem takeCommand_burst (rest : List CommandWord) (s : State) : (takeCommand rest s).burst = s.burst := rfl
@[simp] theorem takeCommand_out (rest : List CommandWord) (s : State) : (takeCommand rest s).out = s.out := rfl
@[simp] theorem takeCommand_fresh (rest : List CommandWord) (s : State) : (takeCommand rest s).fresh = s.fresh := rfl

@[simp] theorem idleTurn_phase (s : State) : (idleTurn s).phase = s.phase := rfl
@[simp] theorem idleTurn_csValid (s : State) : (idleTurn s).csValid = s.csValid := rfl
@[simp] theorem idleTurn_bl (s : State) : (idleTurn s).bl = s.bl := rfl
@[simp] theorem idleTurn_cs (s : State) : (idleTurn s).cs = s.cs := rfl
@[simp] theorem idleTurn_micro (s : State) : (idleTurn s).micro = s.micro := rfl
@[simp] theorem idleTurn_inflight (s : State) : (idleTurn s).inflight = s.inflight := rfl
@[simp] theorem idleTurn_cmds (s : State) : (idleTurn s).cmds = s.cmds := rfl
@[simp] theorem idleTurn_answers (s : State) : (idleTurn s).answers = s.answers := rfl
@[simp] theorem idleTurn_stale (s : State) : (idleTurn s).stale = s.stale := rfl
@[simp] theorem idleTurn_rst (s : State) : (idleTurn s).rst = s.rst := rfl
@[simp] theorem idleTurn_burst (s : State) : (idleTurn s).burst = s.burst := rfl
@[simp] theorem idleTurn_out (s : State) : (idleTurn s).out = [] := rfl
@[simp] theorem idleTurn_fresh (s : State) : (idleTurn s).fresh = s.fresh := rfl

@[simp] theorem issue_phase (r : Request) (s : State) : (issue r s).phase = s.phase := rfl
@[simp] theorem issue_csValid (r : Request) (s : State) : (issue r s).csValid = s.csValid := rfl
@[simp] theorem issue_bl (r : Request) (s : State) : (issue r s).bl = s.bl := rfl
@[simp] theorem issue_cs (r : Request) (s : State) : (issue r s).cs = s.cs := rfl
@[simp] theorem issue_micro (r : Request) (s : State) : (issue r s).micro = s.micro := rfl
@[simp] theorem issue_inflight (r : Request) (s : State) : (issue r s).inflight = some r := rfl
@[simp] theorem issue_cmds (r : Request) (s : State) : (issue r s).cmds = s.cmds := rfl
@[simp] theorem issue_answers (r : Request) (s : State) : (issue r s).answers = s.answers := rfl
@[simp] theorem issue_stale (r : Request) (s : State) : (issue r s).stale = s.stale := rfl
@[simp] theorem issue_rst (r : Request) (s : State) : (issue r s).rst = s.rst := rfl
@[simp] theorem issue_burst (r : Request) (s : State) : (issue r s).burst = s.burst := rfl
@[simp] theorem issue_out (r : Request) (s : State) : (issue r s).out = s.out ++ [.request r] := rfl
@[simp] theorem issue_fresh (r : Request) (s : State) : (issue r s).fresh = s.fresh := rfl

@[simp] theorem takeAnswer_phase (a : Answer) (rest : List Answer) (s : State) : (takeAnswer a rest s).phase = s.phase := rfl
@[simp] theorem takeAnswer_csValid (a : Answer) (rest : List Answer) (s : State) : (takeAnswer a rest s).csValid = s.csValid := rfl
@[simp] theorem takeAnswer_bl (a : Answer) (rest : List Answer) (s : State) : (takeAnswer a rest s).bl = s.bl := rfl
@[simp] theorem takeAnswer_cs (a : Answer) (rest : List Answer) (s : State) : (takeAnswer a rest s).cs = s.cs := rfl
@[simp] theorem takeAnswer_micro (a : Answer) (rest : List Answer) (s : State) : (takeAnswer a rest s).micro = s.micro := rfl
@[simp] theorem takeAnswer_inflight (a : Answer) (rest : List Answer) (s : State) : (takeAnswer a rest s).inflight = none := rfl
@[simp] theorem takeAnswer_cmds (a : Answer) (rest : List Answer) (s : State) : (takeAnswer a rest s).cmds = s.cmds := rfl
@[simp] theorem takeAnswer_answers (a : Answer) (rest : List Answer) (s : State) : (takeAnswer a rest s).answers = rest := rfl
@[simp] theorem takeAnswer_stale (a : Answer) (rest : List Answer) (s : State) : (takeAnswer a rest s).stale = 0 := rfl
@[simp] theorem takeAnswer_rst (a : Answer) (rest : List Answer) (s : State) : (takeAnswer a rest s).rst = s.rst := rfl
@[simp] theorem takeAnswer_burst (a : Answer) (rest : List Answer) (s : State) : (takeAnswer a rest s).burst = s.burst := rfl
@[simp] theorem takeAnswer_out (a : Answer) (rest : List Answer) (s : State) : (takeAnswer a rest s).out = s.out ++ [.answer a] := rfl
@[simp] theorem takeAnswer_fresh (a : Answer) (rest : List Answer) (s : State) : (takeAnswer a rest s).fresh = s.fresh := rfl

@[simp] theorem settleFor_phase (t : Nat) (m : Micro) (s : State) : (settleFor t m s).phase = s.phase := rfl
@[simp] theorem settleFor_csValid (t : Nat) (m : Micro) (s : State) : (settleFor t m s).csValid = s.csValid := rfl
@[simp] theorem settleFor_bl (t : Nat) (m : Micro) (s : State) : (settleFor t m s).bl = s.bl := rfl
@[simp] theorem settleFor_cs (t : Nat) (m : Micro) (s : State) : (settleFor t m s).cs = s.cs := rfl
@[simp] theorem settleFor_micro (t : Nat) (m : Micro) (s : State) : (settleFor t m s).micro = m := rfl
@[simp] theorem settleFor_inflight (t : Nat) (m : Micro) (s : State) : (settleFor t m s).inflight = s.inflight := rfl
@[simp] theorem settleFor_cmds (t : Nat) (m : Micro) (s : State) : (settleFor t m s).cmds = s.cmds := rfl
@[simp] theorem settleFor_answers (t : Nat) (m : Micro) (s : State) : (settleFor t m s).answers = s.answers := rfl
@[simp] theorem settleFor_stale (t : Nat) (m : Micro) (s : State) : (settleFor t m s).stale = s.stale := rfl
@[simp] theorem settleFor_rst (t : Nat) (m : Micro) (s : State) : (settleFor t m s).rst = s.rst := rfl
@[simp] theorem settleFor_burst (t : Nat) (m : Micro) (s : State) : (settleFor t m s).burst = s.burst := rfl
@[simp] theorem settleFor_out (t : Nat) (m : Micro) (s : State) : (settleFor t m s).out = s.out ++ [.settle t] := rfl
@[simp] theorem settleFor_fresh (t : Nat) (m : Micro) (s : State) : (settleFor t m s).fresh = s.fresh := rfl

@[simp] theorem resetBlock_phase (s : State) : (resetBlock s).phase = .uninitialized := rfl
@[simp] theorem resetBlock_csValid (s : State) : (resetBlock s).csValid = false := rfl
@[simp] theorem resetBlock_bl (s : State) : (resetBlock s).bl = Config.freeBaseline (s.fresh + 1) := rfl
@[simp] theorem resetBlock_cs (s : State) : (resetBlock s).cs = Config.freeControllerState s.fresh := rfl
@[simp] theorem resetBlock_micro (s : State) : (resetBlock s).micro = .idle := rfl
@[simp] theorem resetBlock_inflight (s : State) : (resetBlock s).inflight = none := rfl
@[simp] theorem resetBlock_cmds (s : State) : (resetBlock s).cmds = s.cmds := rfl
@[simp] theorem resetBlock_answers (s : State) : (resetBlock s).answers = s.answers := rfl
@[simp] theorem resetBlock_stale (s : State) : (resetBlock s).stale = forgotten s := rfl
@[simp] theorem resetBlock_rst (s : State) : (resetBlock s).rst = false := rfl
@[simp] theorem resetBlock_burst (s : State) : (resetBlock s).burst = s.burst := rfl
@[simp] theorem resetBlock_out (s : State) : (resetBlock s).out = [.phase .uninitialized] := rfl
@[simp] theorem resetBlock_fresh (s : State) : (resetBlock s).fresh = s.fresh + 2 := rfl

end Sys2Proof.Machine
end

