-- ==== Sys2Proof/Laws/Operations.lean ====
section
/-! SUPPORT. One lemma per shared operation that says everything it can do. -/

namespace Sys2Proof.Machine

/-! What a turn begins with. -/

theorem nextTurn_reset {s : State} (h : s.rst = true) : nextTurn s = .reset := by simp [nextTurn, h]

theorem nextTurn_resume {s : State} (h : s.rst = false) (hm : s.micro ≠ .idle) : nextTurn s = .resume := by
  simp [nextTurn, State.cmdReady, h, hm]

theorem nextTurn_wait {s : State} (h : s.rst = false) (hm : s.micro = .idle) (hc : s.cmds = []) :
    nextTurn s = .wait := by
  simp [nextTurn, State.cmdReady, h, hm, hc]

theorem nextTurn_command {s : State} {w : CommandWord} {rest : List CommandWord} (h : s.rst = false)
    (hm : s.micro = .idle) (hc : s.cmds = w :: rest) : nextTurn s = .command w rest := by
  simp [nextTurn, State.cmdReady, h, hm, hc]

/-- A state begins its turn in exactly one of four ways. -/
theorem nextTurn_cases (s : State) :
    (s.rst = true ∧ nextTurn s = .reset) ∨
    (s.rst = false ∧ s.micro ≠ .idle ∧ nextTurn s = .resume) ∨
    (s.rst = false ∧ s.micro = .idle ∧ s.cmds = [] ∧ nextTurn s = .wait) ∨
    (∃ w rest, s.rst = false ∧ s.micro = .idle ∧ s.cmds = w :: rest ∧ nextTurn s = .command w rest) := by
  by_cases h : s.rst = true
  · exact .inl ⟨h, nextTurn_reset h⟩
  have h' : s.rst = false := by simpa using h
  by_cases hm : s.micro = .idle
  · cases hc : s.cmds with
    | nil => exact .inr (.inr (.inl ⟨h', hm, rfl, nextTurn_wait h' hm hc⟩))
    | cons w rest => exact .inr (.inr (.inr ⟨w, rest, h', hm, rfl, nextTurn_command h' hm hc⟩))
  · exact .inr (.inl ⟨h', hm, nextTurn_resume h' hm⟩)

/-! One step of the machine, by what it begins with. -/

theorem step_reset {s : State} (h : s.rst = true) : step s = .next (resetBlock s) := by
  simp [step, nextTurn_reset h]

theorem step_resume {s : State} (h : s.rst = false) (hm : s.micro ≠ .idle) : step s = .next (resumeTurn s) := by
  simp [step, nextTurn_resume h hm]

theorem step_wait {s : State} (h : s.rst = false) (hm : s.micro = .idle) (hc : s.cmds = []) :
    step s = .next (idleTurn s) := by
  simp [step, nextTurn_wait h hm hc]

theorem step_command {s : State} {w : CommandWord} {rest : List CommandWord} (h : s.rst = false)
    (hm : s.micro = .idle) (hc : s.cmds = w :: rest) :
    step s = exec (decodeCommand w) (takeCommand rest s) := by
  simp [step, nextTurn_command h hm hc]

/-! The transport. -/

theorem answerFor_none {s : State} : answerFor s = none ↔ coming s = [] := by
  unfold answerFor; split <;> simp_all

theorem answerFor_some {s : State} {a : Answer} {rest : List Answer} :
    answerFor s = some (a, rest) ↔ coming s = a :: rest := by
  unfold answerFor; split <;> simp_all

@[simp] theorem coming_takeAnswer (a : Answer) (rest : List Answer) (s : State) :
    coming (takeAnswer a rest s) = rest := rfl

/-- A transport request is issued, or waits, or has its answer taken. -/
theorem transact_cases (r : Request) (k : Answer → State → State) (s : State) :
    (s.inflight = none ∧ transact r k s = issue r s) ∨
    (∃ q, s.inflight = some q ∧ coming s = [] ∧ transact r k s = s) ∨
    (∃ q a rest, s.inflight = some q ∧ coming s = a :: rest ∧ transact r k s = k a (takeAnswer a rest s)) := by
  unfold transact
  cases hi : s.inflight with
  | none => simp
  | some q =>
    cases hc : coming s with
    | nil => simp [answerFor_none.mpr hc]
    | cons a rest => simp [answerFor_some.mpr hc]

end Sys2Proof.Machine
end

