-- ==== Sys2Proof/Laws/Micro.lean ====
section
/-! SUPPORT. Everything one step of a command in progress can do, said once, and what follows for a turn of several. -/

namespace Sys2Proof.Machine

/-- The settle micro-steps, their bounds and what comes after them (40_initialize.md R92, 20_memory.md R68). -/
inductive SettlesTo : Micro → Nat → Micro → Prop where
  | i2 : SettlesTo .i2 Config.initSettleMicros .i3
  | i4 : SettlesTo .i4 Config.initSettleMicros .i5
  | i6 : SettlesTo .i6 Config.initSettleMicros (.i7 .select)
  | i7 : SettlesTo (.i7 .settle) Config.pollSettleMicros (.i7 .read)
  | poll : SettlesTo (.poll .settle) Config.pollSettleMicros (.poll .read)

/-- The writes after whose `Ok` only the micro-step changes. -/
inductive WritesTo : Micro → Micro → Prop where
  | i1 : WritesTo .i1 .i2
  | i3 : WritesTo .i3 .i4
  | i7 : WritesTo (.i7 .select) (.i7 .settle)
  | poll : WritesTo (.poll .select) (.poll .settle)

/-- What an answer taken at a micro-step makes of the state after taking it. -/
inductive Answered (m : Micro) : Answer → State → State → Prop where
  | wrote {m' : Micro} {n : Fin 9} {d : Report} {s : State} (h : WritesTo m m') : Answered m (.ok n d) s (goto m' s)
  | format {n : Fin 9} {d : Report} {s : State} (h : m = .i5) : Answered m (.ok n d) s (formatSelected s)
  | captured {n : Fin 9} {d : Report} {s : State} (h : m = .i7 .read) (hn : n.val = 8) :
      Answered m (.ok n d) s (baselineCaptured d s)
  | polled {n : Fin 9} {d : Report} {s : State} (h : m = .poll .read) (hn : n.val = 8) :
      Answered m (.ok n d) s (goto (.p4 d) s)
  | initError {s : State} (h : m.command = some .init) (hr : m.request ≠ none) :
      Answered m .err s (failInit .transportError s)
  | pollError {s : State} (h : m.command = some .poll) (hr : m.request ≠ none) :
      Answered m .err s (failPoll .transportError s)
  | initShort {n : Fin 9} {d : Report} {s : State} (h : m = .i7 .read) (hn : n.val < 8) :
      Answered m (.ok n d) s (failInit .readLengthError s)
  | pollShort {n : Fin 9} {d : Report} {s : State} (h : m = .poll .read) (hn : n.val < 8) :
      Answered m (.ok n d) s (failPoll .readLengthError s)

/-- Everything one step of the command in progress can make of a state. -/
inductive MicroEffect (s : State) : State → Prop where
  | idle (h : s.micro = .idle) : MicroEffect s s
  | waits {q : Request} (hr : s.micro.request ≠ none) (hi : s.inflight = some q) (hc : coming s = []) : MicroEffect s s
  | issues {r : Request} (hr : s.micro.request = some r) (hi : s.inflight = none) : MicroEffect s (issue r s)
  | answered {q : Request} {a : Answer} {rest : List Answer} {t : State} (hr : s.micro.request ≠ none)
      (hi : s.inflight = some q) (hc : coming s = a :: rest) (h : Answered s.micro a (takeAnswer a rest s) t) :
      MicroEffect s t
  | settles {n : Nat} {m : Micro} (h : SettlesTo s.micro n m) : MicroEffect s (settleFor n m s)
  | finishesInit (h : s.micro = .i8) : MicroEffect s (initDone s)
  | finishesPoll {rep : Report} (h : s.micro = .p4 rep) : MicroEffect s (pollDone rep s)

theorem transact_effect {r : Request} {k : Answer → State → State} {s : State} (hr : s.micro.request = some r)
    (h : ∀ a rest, Answered s.micro a (takeAnswer a rest s) (k a (takeAnswer a rest s))) :
    MicroEffect s (transact r k s) := by
  obtain ⟨hi, e⟩ | ⟨q, hi, hc, e⟩ | ⟨q, a, rest, hi, hc, e⟩ := transact_cases r k s
  · rw [e]; exact .issues hr hi
  · rw [e]; exact .waits (by simp [hr]) hi hc
  · rw [e]; exact .answered (by simp [hr]) hi hc (h a rest)

/-- The effect of a report read, as `afterRead` classifies its answer (20_memory.md R68). -/
theorem afterRead_cases (failed : Status → State → State) (done : Report → State → State) (a : Answer) (s : State) :
    (a = .err ∧ afterRead failed done a s = failed .transportError s) ∨
    (∃ n d, a = .ok n d ∧ n.val < 8 ∧ afterRead failed done a s = failed .readLengthError s) ∨
    (∃ n d, a = .ok n d ∧ n.val = 8 ∧ afterRead failed done a s = done d s) := by
  cases a with
  | err => exact .inl ⟨rfl, rfl⟩
  | ok n d =>
    by_cases h : n.val < 8
    · exact .inr (.inl ⟨n, d, rfl, h, by simp [afterRead, Config.reportLen, h]⟩)
    · exact .inr (.inr ⟨n, d, rfl, by omega, by simp [afterRead, Config.reportLen, h]⟩)

/-- One step of the command in progress does one of the things `MicroEffect` names. -/
theorem microStep_effect (s : State) : MicroEffect s (microStep s) := by
  unfold microStep
  split <;> rename_i hm
  · exact .idle hm
  · exact transact_effect (by simp [hm, Micro.request]) fun a rest => by
      rw [hm]
      cases a with
      | err => exact .initError rfl (by simp [Micro.request])
      | ok n d => exact .wrote .i1
  · exact .settles (hm ▸ .i2)
  · exact transact_effect (by simp [hm, Micro.request]) fun a rest => by
      rw [hm]
      cases a with
      | err => exact .initError rfl (by simp [Micro.request])
      | ok n d => exact .wrote .i3
  · exact .settles (hm ▸ .i4)
  · exact transact_effect (by simp [hm, Micro.request]) fun a rest => by
      rw [hm]
      cases a with
      | err => exact .initError rfl (by simp [Micro.request])
      | ok n d => exact .format rfl
  · exact .settles (hm ▸ .i6)
  · rename_i r
    cases r with
    | select =>
      exact transact_effect (by simp [hm, Micro.request]) fun a rest => by
        rw [hm]
        cases a with
        | err => exact .initError rfl (by simp [Micro.request])
        | ok n d => exact .wrote .i7
    | settle => exact .settles (hm ▸ .i7)
    | read =>
      exact transact_effect (by simp [hm, Micro.request]) fun a rest => by
        rw [hm]
        obtain ⟨rfl, e⟩ | ⟨n, d, rfl, hn, e⟩ | ⟨n, d, rfl, hn, e⟩ :=
          afterRead_cases failInit baselineCaptured a (takeAnswer a rest s) <;> rw [e]
        · exact .initError rfl (by simp [Micro.request])
        · exact .initShort rfl hn
        · exact .captured rfl hn
  · exact .finishesInit hm
  · rename_i r
    cases r with
    | select =>
      exact transact_effect (by simp [hm, Micro.request]) fun a rest => by
        rw [hm]
        cases a with
        | err => exact .pollError rfl (by simp [Micro.request])
        | ok n d => exact .wrote .poll
    | settle => exact .settles (hm ▸ .poll)
    | read =>
      exact transact_effect (by simp [hm, Micro.request]) fun a rest => by
        rw [hm]
        obtain ⟨rfl, e⟩ | ⟨n, d, rfl, hn, e⟩ | ⟨n, d, rfl, hn, e⟩ :=
          afterRead_cases failPoll (fun rep => goto (.p4 rep)) a (takeAnswer a rest s) <;> rw [e]
        · exact .pollError rfl (by simp [Micro.request])
        · exact .pollShort rfl hn
        · exact .polled rfl hn
  · exact .finishesPoll hm

/-- To show something of the state after one step, show it of every effect a step can have. -/
theorem microStep_elim {P : State → Prop} (s : State) (h : ∀ t, MicroEffect s t → P t) : P (microStep s) :=
  h _ (microStep_effect s)

/-! Turns of several steps. -/

@[simp] theorem runMicro_zero (s : State) : runMicro 0 s = s := rfl

theorem runMicro_succ (n : Nat) (s : State) : runMicro (n + 1) s = runMicro n (microStep s) := rfl

theorem runMicro_add (m n : Nat) (s : State) : runMicro (m + n) s = runMicro n (runMicro m s) := by
  induction m generalizing s with
  | zero => simp
  | succ m ih => rw [Nat.succ_add_eq_add_succ, Nat.add_succ, runMicro_succ, runMicro_succ, ih]

theorem microStep_idle {s : State} (h : s.micro = .idle) : microStep s = s := by simp [microStep, h]

/-- A state that a step leaves as it is, is left as it is by a turn: an idle block, or one that waits. -/
theorem runMicro_fixed {s : State} (h : microStep s = s) (n : Nat) : runMicro n s = s := by
  induction n with
  | zero => rfl
  | succ n ih => rw [runMicro_succ, h, ih]

/-- What every step of a command keeps, a turn keeps. -/
theorem runMicro_keeps {P : State → Prop} (h : ∀ s, P s → P (microStep s)) (n : Nat) {s : State} (hs : P s) :
    P (runMicro n s) := by
  induction n generalizing s with
  | zero => exact hs
  | succ n ih => exact ih (h s hs)

/-- A relation between before and after that every step has, and that composes, holds of a turn. -/
theorem runMicro_relates {R : State → State → Prop} (refl : ∀ s, R s s) (trans : ∀ s t u, R s t → R t u → R s u)
    (h : ∀ s, R s (microStep s)) (n : Nat) (s : State) : R s (runMicro n s) := by
  induction n generalizing s with
  | zero => exact refl s
  | succ n ih => exact trans _ _ _ (h s) (ih _)

end Sys2Proof.Machine
end

