-- ==== Sys2Proof/Laws/Channels.lean ====
section
/-! SUPPORT. Lists of events put together, and what every step of a command leaves alone. -/

namespace Sys2Proof.Machine

@[simp] theorem requestsOf_append (xs ys : List Event) : requestsOf (xs ++ ys) = requestsOf xs ++ requestsOf ys := by
  induction xs with
  | nil => rfl
  | cons x xs ih => cases x <;> simp [requestsOf, ih]

@[simp] theorem responsesOf_append (xs ys : List Event) :
    responsesOf (xs ++ ys) = responsesOf xs ++ responsesOf ys := by
  induction xs with
  | nil => rfl
  | cons x xs ih => cases x <;> simp [responsesOf, ih]

@[simp] theorem phasesOf_append (xs ys : List Event) : phasesOf (xs ++ ys) = phasesOf xs ++ phasesOf ys := by
  induction xs with
  | nil => rfl
  | cons x xs ih => cases x <;> simp [phasesOf, ih]

theorem phasePath_append {p q r : Phase} {xs ys : List Phase} (h : phasePath p xs q) (h' : phasePath q ys r) :
    phasePath p (xs ++ ys) r := by
  induction xs generalizing p with
  | nil => cases h; exact h'
  | cons x xs ih => exact ⟨h.1, ih h.2⟩

theorem channelPath_append {p q r : Option Request} {xs ys : List Event} (h : channelPath p xs q)
    (h' : channelPath q ys r) : channelPath p (xs ++ ys) r := by
  induction xs generalizing p with
  | nil => cases h; exact h'
  | cons x xs ih =>
    cases x with
    | request q => exact ⟨h.1, ih h.2⟩
    | answer a => exact ⟨h.1, ih h.2⟩
    | accepted i => exact ih (p := p) h
    | phase x => exact ih (p := p) h
    | settle n => exact ih (p := p) h
    | response x => exact ih (p := p) h

/-- A response is in a list of events exactly when the response channel shows one. -/
theorem responseIn_none_iff (es : List Event) : responseIn es = none ↔ responsesOf es = [] := by
  induction es with
  | nil => simp [responseIn, responsesOf]
  | cons e es ih => cases e <;> simp [responseIn, responsesOf, ih]

/-- What one step of a command does to a state, seen from outside its registers: it adds events, takes a first part of the
answers, and touches no input. -/
structure Extends (s t : State) : Prop where
  cmds : t.cmds = s.cmds
  rst : t.rst = s.rst
  burst : t.burst = s.burst
  fresh : t.fresh = s.fresh
  out : ∃ es, t.out = s.out ++ es
  answers : ∃ k, coming t = (coming s).drop k

theorem Extends.refl (s : State) : Extends s s := ⟨rfl, rfl, rfl, rfl, ⟨[], by simp⟩, 0, by simp⟩

theorem Extends.trans {s t u : State} (h : Extends s t) (h' : Extends t u) : Extends s u := by
  obtain ⟨es, he⟩ := h.out
  obtain ⟨es', he'⟩ := h'.out
  obtain ⟨k, hk⟩ := h.answers
  obtain ⟨k', hk'⟩ := h'.answers
  exact ⟨h'.cmds.trans h.cmds, h'.rst.trans h.rst, h'.burst.trans h.burst, h'.fresh.trans h.fresh,
    ⟨es ++ es', by simp [he, he']⟩, k + k', by rw [hk', hk, List.drop_drop]⟩

/-- Taking an answer adds one event and takes one answer. -/
theorem takeAnswer_extends {s : State} {a : Answer} {rest : List Answer} (hc : coming s = a :: rest) :
    Extends s (takeAnswer a rest s) :=
  ⟨rfl, rfl, rfl, rfl, ⟨_, rfl⟩, 1, by simp [hc]⟩

/-- What an answer leads to only adds events. -/
theorem Answered.extends {m : Micro} {a : Answer} {s t : State} (h : Answered m a s t) : Extends s t := by
  cases h <;>
    exact ⟨rfl, rfl, rfl, rfl, ⟨_, by
      simp [formatSelected, baselineCaptured, failInit, failPoll]; try rfl⟩, 0, by simp [coming]; try rfl⟩

/-- One step of a command extends the state it finds. -/
theorem microStep_extends (s : State) : Extends s (microStep s) := by
  refine microStep_elim (P := Extends s) s fun t h => ?_
  cases h with
  | idle h => exact .refl s
  | waits hr hi hc => exact .refl s
  | issues hr hi => exact ⟨rfl, rfl, rfl, rfl, ⟨_, rfl⟩, 0, rfl⟩
  | answered hr hi hc h =>
    exact (takeAnswer_extends hc).trans h.extends
  | settles h => exact ⟨rfl, rfl, rfl, rfl, ⟨_, rfl⟩, 0, rfl⟩
  | finishesInit h => exact ⟨rfl, rfl, rfl, rfl, ⟨_, by simp [initDone]; try rfl⟩, 0, rfl⟩
  | finishesPoll h => exact ⟨rfl, rfl, rfl, rfl, ⟨_, by simp [pollDone]; try rfl⟩, 0, rfl⟩

/-- A turn extends the state it finds. -/
theorem runMicro_extends (n : Nat) (s : State) : Extends s (runMicro n s) :=
  runMicro_relates Extends.refl (fun _ _ _ => Extends.trans) microStep_extends n s

end Sys2Proof.Machine
end

