-- ==== Sys2Proof/Laws/Datapath.lean ====
section
/-! SUPPORT. One spec lemma per function of the datapath. -/

namespace Sys2Proof.Machine

/-- A bit of a byte of a report is a bit of the report. -/
theorem byteAt_getLsbD (rep : Report) (i k : Nat) : (byteAt rep i).getLsbD k = (decide (k < 8) && rep.getLsbD (8 * i + k)) := by
  simp [byteAt]

theorem wireBit_eq (rep : Report) (j k : Nat) (hk : k < 8) : wireBit rep j k = rep.getLsbD (8 * j + k) := by
  rw [wireBit, byteAt_getLsbD, decide_eq_true hk, Bool.true_and]

/-- The gathered vector holds the wire bit of the table's row at each lane. -/
theorem gather_getLsbD (rep : Report) (rows : List (Nat × Nat)) (n : Nat) (hn : n < 15) :
    (gather rep rows).getLsbD n = (rows[n]?.map fun row => wireBit rep row.1 row.2).getD false := by
  induction rows generalizing n with
  | nil => simp [gather]
  | cons row rows ih =>
    cases n with
    | zero => simp [gather]
    | succ n =>
      have := ih n (by omega)
      simp_all [gather, BitVec.getLsbD_eq_getElem]

/-- `center` as an integer. -/
theorem center_toInt (raw base : Byte) : (center raw base).toInt = (raw.toNat : Int) - (base.toNat : Int) := by
  have hr := raw.isLt
  have hb := base.isLt
  rw [BitVec.toInt_eq_toNat_cond]
  simp only [center, BitVec.toNat_sub, BitVec.toNat_setWidth]
  split <;> omega

/-- `depth` as a natural number: truncated subtraction. -/
theorem depth_toNat (raw base : Byte) : (depth raw base).toNat = raw.toNat - base.toNat := by
  have hr := raw.isLt
  unfold depth
  split
  · simp; omega
  · simp only [BitVec.toNat_sub]; omega

end Sys2Proof.Machine
end

