-- ==== Sys2Proof/Laws/Encoding.lean ====
section
/-! SUPPORT. The fields of a command word put together from an opcode and an operand. -/

namespace Sys2Proof

@[simp] theorem opField_append (op : BitVec 2) (rep : Report) : opField (op ++ rep : CommandWord) = op := by
  apply BitVec.eq_of_getLsbD_eq
  intro k hk
  rw [opField, BitVec.getLsbD_extractLsb', BitVec.getLsbD_append]
  simp [hk]

@[simp] theorem repField_append (op : BitVec 2) (rep : Report) : repField (op ++ rep : CommandWord) = rep := by
  apply BitVec.eq_of_getLsbD_eq
  intro k hk
  rw [repField, BitVec.getLsbD_extractLsb', BitVec.getLsbD_append]
  simp [hk]

/-- The operand of a well-formed `CALIBRATE` keeps all its bits. -/
theorem calibrateOperand_of_lt {rep : Report} (h : rep.toNat < 2 ^ 48) : calibrateOperand rep = rep := by
  apply BitVec.eq_of_toNat_eq
  simp [calibrateOperand]
  omega

@[simp] theorem calibrateOperand_lt (rep : Report) : (calibrateOperand rep).toNat < 2 ^ 48 := by
  simp [calibrateOperand]
  omega

end Sys2Proof
end

