-- ==== Sys2Proof/Laws/PerInstr.lean ====
section
/-! SUPPORT. What holds of every instruction as syntax, one lemma per constructor: an encoded command word lies in its row
of the command map (30_encoding.md R79). -/

namespace Sys2Proof.Laws.MapRow

/-- The `match` column of the command map (30_encoding.md R79), over the mask `0x30000000000000000`. -/
def rowMatch : Instr → CommandWord
  | .init => 0x00000000000000000
  | .poll => 0x10000000000000000
  | .decode _ => 0x20000000000000000
  | .calibrate _ => 0x30000000000000000

/-- An instruction's word, under the map's mask, is its row's match value. -/
def Statement (i : Instr) : Prop := encode i &&& 0x30000000000000000 = rowMatch i

theorem init : Statement .init := by unfold Statement; decide

theorem poll : Statement .poll := by unfold Statement; decide

theorem append_opcode (op : BitVec 2) (rep : Report) :
    (op ++ rep : CommandWord) &&& 0x30000000000000000 = op ++ (0 : Report) := by
  apply BitVec.eq_of_getLsbD_eq
  intro k hk
  have hm : (0x30000000000000000 : BitVec 66) = (3 : BitVec 2) ++ (0 : BitVec 64) := by decide
  rw [hm, BitVec.getLsbD_and, BitVec.getLsbD_append, BitVec.getLsbD_append, BitVec.getLsbD_append]
  by_cases h : k < 64
  · simp [h]
  · have hk2 : k - 64 = 0 ∨ k - 64 = 1 := by omega
    obtain e | e := hk2 <;> simp [h, e]

theorem decode (rep : Report) : Statement (.decode rep) := by
  unfold Statement
  exact (append_opcode 2 rep).trans (show (2 : BitVec 2) ++ (0 : Report) = (0x20000000000000000 : CommandWord) by decide)

theorem calibrate (rep : Report) : Statement (.calibrate rep) := by
  unfold Statement
  exact (append_opcode 3 (calibrateOperand rep)).trans
    (show (3 : BitVec 2) ++ (0 : Report) = (0x30000000000000000 : CommandWord) by decide)

end Sys2Proof.Laws.MapRow
end

