-- ==== Sys2Proof/Laws/Run.lean ====
section
/-! SUPPORT. Runs of several steps of the machine. -/

namespace Sys2Proof.Machine

/-- A run of one more step begins with a step, for any machine. -/
theorem run_succ (M : Host.Core) {s t : M.State} (h : M.step s = .next t) (k : Nat) :
    M.run (k + 1) s = M.run k t := by
  rw [Host.Core.run, h]

/-- A run of one more step begins with a step. -/
theorem core_run_next {s t : State} (h : step s = .next t) (k : Nat) :
    Sys2Proof.core.run (k + 1) s = Sys2Proof.core.run k t :=
  run_succ Sys2Proof.core h k

/-- A step that leaves a state as it is but for the outputs of the last turn, leaves it so for ever. -/
theorem core_run_fixed {s : State} (h : step s = .next { s with out := [] })
    (h' : step { s with out := [] } = .next { s with out := [] }) (k : Nat) :
    Sys2Proof.core.run (k + 1) s = .next { s with out := [] } := by
  have fixed : ∀ k, Sys2Proof.core.run k { s with out := [] } = .next { s with out := [] } := by
    intro k
    induction k with
    | zero => rfl
    | succ k ih => rw [core_run_next h', ih]
  rw [core_run_next h, fixed]

end Sys2Proof.Machine
end

