-- ==== Sys2Proof/Tests/Slice0.lean ====
section
/-! SUPPORT. Tests, expected values from spec/95_test_vectors.md or from the rules, and a witness for the hypotheses of each
statement that has any. -/

open Sys2Proof Sys2Proof.Machine Sys2Proof.Claims

namespace Sys2Proof.Tests

/-! Well-formedness: the one check there is. -/

/-- A `CALIBRATE` operand with bit 48 set is no instruction's (43_calibrate.md R155). -/
theorem test_wellFormed_refuses : (Instr.calibrate 0x0001000000000000).wellFormed = false := by decide

theorem test_wellFormed_accepts : (Instr.calibrate 0x0000FFFFFFFFFFFF).wellFormed = true := by decide

/-! Decoding: words written out field by field (30_encoding.md R78, 95_test_vectors.md part 3). -/

/-- `INITIALIZE` with a junk operand. -/
theorem test_decode_init :
    decodeCommand (0b00#2 ++ 0b1101111010101101101111101110111100000000110000001111111111101110#64) = .init := by decide

theorem test_decode_poll : decodeCommand (0b01#2 ++ 0#64) = .poll := by decide

/-- `DECODE [C8 32 00 FF 05 F0 B7 EE]`: byte 7 stands highest. -/
theorem test_decode_decode :
    decodeCommand (0b10#2 ++ 0b11101110#8 ++ 0b10110111#8 ++ 0b11110000#8 ++ 0b00000101#8 ++ 0b11111111#8 ++
      0b00000000#8 ++ 0b00110010#8 ++ 0b11001000#8) = .decode 0xEEB7F005FF0032C8 := by decide

/-- `CALIBRATE [7C 84 80 7E 12 03 FF FF]`: bytes 6 and 7 are no part of it. -/
theorem test_decode_calibrate :
    decodeCommand (0b11#2 ++ 0b11111111#8 ++ 0b11111111#8 ++ 0b00000011#8 ++ 0b00010010#8 ++ 0b01111110#8 ++
      0b10000000#8 ++ 0b10000100#8 ++ 0b01111100#8) = .calibrate 0x000003127E80847C := by decide

theorem test_decodeNumber_rejects : decodeNumber 0x40000000000000000 = .error .widerThanCommandWord := by decide

theorem test_decodeTableWord_calibrate : decodeTableWord 72 0x30000060504030201 = some (.calibrate 0x060504030201) := by
  decide

theorem test_encode_words :
    encode .init = 0x00000000000000000 ∧ encode .poll = 0x10000000000000000 ∧
    encode (.decode 0xFFFF051080808080) = 0x2FFFF051080808080 ∧
    encode (.calibrate 0x000002407E708090) = 0x3000002407E708090 := by decide

/-! The datapath: vectors of 95_test_vectors.md part 2. -/

/-- Table V-C. -/
theorem test_center :
    center 255 255 = 0x000 ∧ center 127 128 = 0x1FF ∧ center 0 128 = 0x180 ∧ center 128 0 = 0x080 ∧
    center 200 50 = 0x096 ∧ center 50 200 = 0x16A ∧ center 255 0 = 0x0FF ∧ center 0 255 = 0x101 := by decide

/-- Table V-D. -/
theorem test_depth :
    depth 16 16 = 0 ∧ depth 17 16 = 1 ∧ depth 5 16 = 0 ∧ depth 255 16 = 239 ∧ depth 255 5 = 250 ∧
    depth 255 0 = 255 ∧ depth 0 255 = 0 ∧ depth 200 50 = 150 := by decide

/-- Table V-B, byte 6 from bit 7 down. -/
theorem test_buttons_byte6 :
    [0xFF7F051080808080, 0xFFBF051080808080, 0xFFDF051080808080, 0xFFEF051080808080, 0xFFF7051080808080,
      0xFFFB051080808080, 0xFFFD051080808080, 0xFFFE051080808080].map (fun rep : Report => invert (unpackButtons rep)) =
    [0x0400, 0x0100, 0x2000, 0x0040, 0x0010, 0x0020, 0x4000, 0x0000] := by decide

/-- Table V-B, byte 7 from bit 7 down. -/
theorem test_buttons_byte7 :
    [0x7FFF051080808080, 0xBFFF051080808080, 0xDFFF051080808080, 0xEFFF051080808080, 0xF7FF051080808080,
      0xFBFF051080808080, 0xFDFF051080808080, 0xFEFF051080808080].map (fun rep : Report => invert (unpackButtons rep)) =
    [0x0800, 0x0002, 0x0008, 0x0001, 0x0004, 0x1000, 0x0200, 0x0080] := by decide

/-- The baseline of the source's scenarios, `{128,128,128,128,16,5}`. -/
def restBaseline : Baseline := ⟨128, 128, 128, 128, 16, 5⟩

/-- Table V-R row 3. -/
theorem test_decodeReport_row3 :
    decodeReport 0xEEB7F005FF0032C8 restBaseline =
      { lx := 200, rx := 50, ly := 0, ry := 255, ltAnalog := 5, rtAnalog := 240,
        lxC := 0x048, rxC := 0x1B2, lyC := 0x180, ryC := 0x07F, ltDepth := 0, rtDepth := 235, btn := 0x0191 } := by
  decide

/-- Table V-R row 6, the wire order check. -/
theorem test_decodeReport_row6 :
    decodeReport 0xFFFF060504030201 ⟨0, 0, 0, 0, 0, 0⟩ =
      { lx := 1, rx := 2, ly := 3, ry := 4, ltAnalog := 5, rtAnalog := 6,
        lxC := 1, rxC := 2, lyC := 3, ryC := 4, ltDepth := 5, rtDepth := 6, btn := 0x0000 } := by
  decide

/-! Commands, one step each. -/

/-- What a step leads to. -/
def nextOf : Host.Outcome State Fault Refusal → Option State
  | .next s => some s
  | .fault _ => none
  | .refused _ => none

/-- An answer `Ok` to a write. -/
def wrote : Answer := .ok 0 0

/-- After reset, with the adapter's answers ready. -/
def freshWith (answers : List Answer) : State := { State.reset with answers := answers }

/-- A block in `Ready` with the rest baseline, with the adapter's answers ready. -/
def readyWith (answers : List Answer) : State :=
  { State.reset with phase := .ready, bl := restBaseline, answers := answers }

/-- Program 1, command 1: `Ready`, the baseline from the report read, CS_VALID 0. -/
theorem test_initialize_ok :
    (nextOf (exec .init (freshWith [wrote, wrote, wrote, wrote, .ok 8 0xFFFF051080808080]))).map
      (fun t => (t.phase, t.bl, t.csValid, t.rsp)) =
    some (.ready, restBaseline, false, some ⟨.ok, none⟩) := by decide

/-- Program 5, command 3: five bytes from the calibration read. -/
theorem test_initialize_short :
    (nextOf (exec .init (freshWith [wrote, wrote, wrote, wrote, .ok 5 0x0F7E827F81]))).map
      (fun t => (t.phase, t.csValid, phasesOf t.out, t.rsp)) =
    some (.uninitialized, false, [.unlocking, .modeConfigured, .uninitialized], some ⟨.readLengthError, none⟩) := by
  decide

/-- Program 1, command 2. -/
theorem test_poll_ok :
    (nextOf (exec .poll (readyWith [wrote, .ok 8 0xBFFF051080807B85]))).map (fun t => (t.csValid, t.csOut)) =
    some (true, some
      { lx := 133, rx := 123, ly := 128, ry := 128, ltAnalog := 16, rtAnalog := 5,
        lxC := 0x005, rxC := 0x1FB, lyC := 0, ryC := 0, ltDepth := 0, rtDepth := 0, btn := 0x0002 }) := by decide

/-- Scenario S-S3: six bytes. -/
theorem test_poll_short :
    (nextOf (exec .poll (readyWith [wrote, .ok 6 0xF005FF0032C8]))).map (fun t => (t.cs, t.csValid, t.rspStatusOut)) =
    some (State.reset.cs, false, some 0b10) := by decide

/-- Scenario S-S2: the Right button. -/
theorem test_decode_right :
    (nextOf (exec (.decode 0xFF7F051080808080) (readyWith []))).bind (fun t => t.rsp.bind fun r => r.state.map
      fun st => (st.pressed .right, st.btn, st.lxC, st.ltDepth)) = some (true, 0x0400, 0, 0) := by decide

/-- Program 2, command 2. -/
theorem test_decode_notReady :
    (nextOf (exec (.decode 0xFFFF051080808080) State.reset)).map (fun t => t.rsp) =
      some (some ⟨.notReadyError, none⟩) := by decide

/-- Table V-K row 2. -/
theorem test_calibrate_ok :
    (nextOf (exec (.calibrate 0x000003127E80847C) { readyWith [] with csValid := true })).map
      (fun t => (t.bl, t.csValid, t.phase)) = some (⟨124, 132, 128, 126, 18, 3⟩, false, .ready) := by decide

/-- Program 2, command 3. -/
theorem test_calibrate_notReady :
    (nextOf (exec (.calibrate 0x051080808080) State.reset)).map (fun t => (t.bl, t.rsp)) =
      some (State.reset.bl, some ⟨.notReadyError, none⟩) := by decide

/-- Table V-E: from reset, an `INITIALIZE` word is accepted and asks for the first write. -/
theorem test_step_initialize :
    (nextOf (step (State.reset.withFetchWord 72 0x0DEADBEEF00C0FFEE))).map
      (fun t => (t.phase, t.micro, t.inflight, t.cmds)) =
    some (.unlocking, .i1, some (.write 0x52 0xF0 (some 0x55)), []) := by decide

/-- 70_reset_and_hazards.md R192: reset while the first write is outstanding. -/
theorem test_step_reset :
    (nextOf (step { State.reset with phase := .unlocking, micro := .i1, inflight := some unlockAWrite, rst := true })).map
      (fun t => (t.phase, t.micro, t.inflight, t.stale, t.rsp)) =
    some (.uninitialized, .idle, none, 1, none) := by decide

/-! Witnesses: concrete states and operands that meet the hypotheses of each statement together. -/

/-- A block waiting for the answer to the first write of `INITIALIZE`. -/
def waiting : State := { State.reset with phase := .unlocking, micro := .i1, inflight := some unlockAWrite }

/-- A block that has just taken the report of a `POLL`. -/
def decoding : State := { readyWith [] with micro := .p4 0xFFFF051080808080 }

/-- A block whose `CS` holds the decode of a report. -/
def valid : State := { readyWith [] with csValid := true, cs := decodeReport 0 restBaseline }

theorem waiting_inv : StateInv waiting :=
  ⟨rfl, fun h => (nomatch h), fun h => (nomatch h), fun _ h => by cases h; rfl⟩

theorem decoding_inv : StateInv decoding :=
  ⟨rfl, fun h => (nomatch h), fun h => (nomatch h), fun _ h => (nomatch h)⟩

theorem valid_inv : StateInv valid :=
  ⟨.inr rfl, fun _ => rfl, fun _ => ⟨0, rfl⟩, fun _ h => (nomatch h)⟩

theorem reset_inv : StateInv State.reset :=
  ⟨.inl rfl, fun h => (nomatch h), fun h => (nomatch h), fun _ h => (nomatch h)⟩

/-- DecodeOfEncodeIsTheCommand. -/
theorem witness_wellFormed : (Instr.calibrate 0x0000060504030201).wellFormed = true := by decide

/-- CommandMapByMatchAndMask: each clause. -/
theorem witness_mapRows :
    (0x0DEADBEEF00C0FFEE : CommandWord) &&& 0x30000000000000000 = 0x00000000000000000 ∧
    (0x1DEADBEEF00C0FFEE : CommandWord) &&& 0x30000000000000000 = 0x10000000000000000 ∧
    (0x2FFFFFFFFFFFFFFFF : CommandWord) &&& 0x30000000000000000 = 0x20000000000000000 ∧
    (0x3FFFFFFFFFFFFFFFF : CommandWord) &&& 0x30000000000000000 = 0x30000000000000000 := by decide

/-- DepthIsFlooredAtZero: both clauses, at the values where they meet. -/
theorem witness_depth : (16 : Byte).toNat ≤ (16 : Byte).toNat ∧ (16 : Byte).toNat < (17 : Byte).toNat := by decide

/-- ButtonsAreInvertedWireBits: the clauses with hypotheses. -/
theorem witness_buttons :
    (14 : Nat) < 15 ∧ (0xFFFF051080808080 : Report).extractLsb' 48 16 = 0xFFFF ∧
    (0x0000051080808080 : Report).extractLsb' 48 16 = 0x0000 := by decide

/-- OnlyTheUnassignedBitIsIgnored: the ignored bit and a neighbour. -/
theorem witness_bits : (48 : Nat) < 64 ∧ (49 : Nat) < 64 := by decide

/-- DecodeFieldsDependOnTheirInputs: two reports alike in byte 0 and in the Right bit only, two baselines alike in LX. -/
theorem witness_fields :
    byteAt 0xFFFF051080808080 0 = byteAt 0x00800000000000080 0 ∧ restBaseline.lx = (⟨128, 0, 0, 0, 0, 0⟩ : Baseline).lx ∧
    (0xFFFF051080808080 : Report).getLsbD (repBitOf .right) = (0x0080000000000080 : Report).getLsbD (repBitOf .right) := by
  decide

/-- DecodeCompletesInReady, CalibrateCompletesInReady, CalibrateThenDecodeReadsZero. -/
theorem witness_ready :
    (readyWith []).phase = .ready ∧
    (0x0000051080808080 : Report).extractLsb' 0 48 = (0xFFFF051080808080 : Report).extractLsb' 0 48 := by decide

/-- DecodeIsRefusedOutsideReady, CalibrateIsRefusedOutsideReady, PollIsRefusedOutsideReady. -/
theorem witness_notReady : State.reset.phase ≠ .ready := by decide

/-- PollCompletes. -/
theorem witness_pollCompletes :
    (readyWith [wrote, .ok 8 0]).phase = .ready ∧ coming (readyWith [wrote, .ok 8 0]) = .ok 0 0 :: .ok 8 0 :: [] ∧
    6 ≤ (readyWith [wrote, .ok 8 0]).burst := by decide

/-- PollShortReadRetainsState: no byte at all, and seven. -/
theorem witness_pollShort :
    (coming (readyWith [wrote, .ok 0 0]) = .ok 0 0 :: .ok 0 0 :: [] ∧ (0 : Fin 9).val < 8) ∧
    (coming (readyWith [wrote, .ok 7 0]) = .ok 0 0 :: .ok 7 0 :: [] ∧ (7 : Fin 9).val < 8) ∧
    (readyWith []).phase = .ready ∧ 5 ≤ (readyWith []).burst := by decide

/-- PollTransportErrorRetainsState: both clauses. -/
theorem witness_pollError :
    coming (readyWith [.err]) = .err :: [] ∧ coming (readyWith [wrote, .err]) = .ok 0 0 :: .err :: [] := by decide

/-- PollFrame, InitializeFrame. -/
theorem witness_frames :
    (∃ t, exec .poll (readyWith [wrote]) = .next t) ∧ ∃ t, exec .init (freshWith [wrote]) = .next t :=
  ⟨⟨_, rfl⟩, _, rfl⟩

/-- InitializeCompletes, InitializeEventOrder. -/
theorem witness_initialize :
    coming (freshWith [wrote, wrote, wrote, wrote, .ok 8 0]) =
      .ok 0 0 :: .ok 0 0 :: .ok 0 0 :: .ok 0 0 :: .ok 8 0 :: [] ∧
    15 ≤ (freshWith [wrote, wrote, wrote, wrote, .ok 8 0]).burst := by decide

/-- InitializeFailureRows: a failing first write, a failing read, a short read. -/
theorem witness_initializeFails :
    coming (freshWith [.err]) = [] ++ .err :: [] ∧
    (coming (freshWith [wrote, wrote, wrote, wrote, .err]) = [wrote, wrote, wrote, wrote] ++ .err :: [] ∧
      coming (freshWith [wrote, wrote, wrote, wrote, .ok 7 0]) = [wrote, wrote, wrote, wrote] ++ .ok 7 0 :: [] ∧
      ∀ a ∈ [wrote, wrote, wrote, wrote], isOk a = true) ∧ 14 ≤ State.reset.burst := by decide

/-- InitializeBeginsUnlocking. -/
theorem witness_oneStep : ({ State.reset with burst := 0 } : State).burst = 0 := by decide

/-- RequestsAreOfTheAddressMap, OneRequestAtATime, PhaseFollowsTheTable, InvariantIsKept, BusyBlockAcceptsNothing,
OneResponseEndsACommand, StatusesByCommand: a command in progress. -/
theorem witness_busyStep :
    StateInv waiting ∧ waiting.rst = false ∧ waiting.micro ≠ .idle ∧ waiting.micro.command = some .init ∧
    ∃ t, step waiting = .next t :=
  ⟨waiting_inv, rfl, by decide, rfl, _, rfl⟩

/-- SettlesSeparateRequests: one clause of each kind, a write answered and a settle passed. -/
theorem witness_settles :
    (∃ t, step { waiting with answers := [wrote], burst := 0 } = .next t ∧ t.micro = .i2) ∧
    ∃ t, step { waiting with micro := .i2, inflight := none, burst := 0 } = .next t ∧ t.micro = .i3 :=
  ⟨⟨_, rfl, rfl⟩, _, rfl, rfl⟩

/-- UnansweredRequestWaitsForEver. -/
theorem witness_waits :
    waiting.rst = false ∧ waiting.micro.request = some unlockAWrite ∧ waiting.inflight = some unlockAWrite ∧
    coming waiting = [] := by decide

/-- CommandsWaitForTheirFirstAnswer. -/
theorem witness_firstAnswer : coming (readyWith []) = [] ∧ 1 ≤ (readyWith []).burst ∧ (readyWith []).phase = .ready := by
  decide

/-- ResetTakesTheResetState, LateAnswerIsIgnored: with the late answer there, and with it still to come. -/
theorem witness_reset :
    (∃ t, step { waiting with rst := true, answers := [wrote] } = .next t) ∧
    coming { waiting with rst := true, answers := [wrote] } = wrote :: [] ∧
    ({ waiting with rst := true } : State).answers.length = ({ waiting with rst := true } : State).stale :=
  ⟨⟨_, rfl⟩, by decide, by decide⟩

/-- IdleBlockDoesNothing. -/
theorem witness_idle : State.reset.rst = false ∧ State.reset.micro = .idle ∧ State.reset.cmds = [] := by decide

/-- StepRunsTheDecodedCommand. -/
theorem witness_command :
    (State.reset.present 0x10000000000000000).cmds = 0x10000000000000000 :: [] ∧
    (State.reset.present 0x10000000000000000).micro = .idle ∧
    decodeCommand 0x10000000000000000 = .poll := by decide

/-- TurnsCompose: the second turn finds the command still in progress. -/
theorem witness_turns :
    ∃ t, step ((freshWith [wrote, wrote] |>.present 0).setBurst 0) = .next t ∧
      ∃ u, step (t.setBurst 1) = .next u ∧ u.micro ≠ .idle ∧ ∃ v, step (u.setBurst 0) = .next v :=
  ⟨_, rfl, _, rfl, by decide, _, rfl⟩

/-- CsIsWrittenOnlyByPoll, BaselineIsWrittenOnlyByCalibration: a `POLL` about to store, a `CALIBRATE` presented. -/
theorem witness_writes :
    (StateInv decoding ∧ ∃ t, step decoding = .next t ∧ t.csValid = true) ∧
    StateInv valid ∧ ∃ t, step (valid.present 0x3000003127E80847C) = .next t ∧ t.csValid = false :=
  ⟨⟨decoding_inv, _, rfl, rfl⟩, valid_inv, _, rfl, rfl⟩

/-- UnspecifiedContentsAreNeverRead: two different states alike where the spec gives values. -/
theorem witness_unspecified :
    StateInv State.reset ∧ alikeWhereSpecified State.reset { State.reset with bl := restBaseline } ∧
    State.reset ≠ { State.reset with bl := restBaseline } ∧ ∃ t, step State.reset = .next t :=
  ⟨reset_inv, ⟨restBaseline, State.reset.cs, rfl, fun h => (nomatch h), fun h => by simp [State.reset] at h⟩,
    by decide, _, rfl⟩

end Sys2Proof.Tests
end

section
/-! PROOF. Turns compose (00_scope.md R7): a command in progress reads neither the outputs already driven nor the length
of its turn, so a turn cut in two goes the same way. -/

namespace Sys2Proof.Machine

/-- The same state seen in another turn: some outputs were driven before its own, and the turn has another length. -/
def inTurn (before : List Event) (b : Nat) (s : State) : State := { s with out := before ++ s.out, burst := b }

@[simp] theorem inTurn_micro (before : List Event) (b : Nat) (s : State) : (inTurn before b s).micro = s.micro := rfl

/-- A turn that follows another, seen as the rest of one longer turn. -/
theorem inTurn_idleTurn (b n : Nat) (t : State) : inTurn t.out b (idleTurn (t.setBurst n)) = t.setBurst b := by
  simp [inTurn, idleTurn, State.setBurst]

/-- An operation that does the same in every turn: what was driven before and how long the turn is change nothing. -/
def TurnBlind (f : State → State) : Prop := ∀ before b s, f (inTurn before b s) = inTurn before b (f s)

theorem TurnBlind.comp {f g : State → State} (hf : TurnBlind f) (hg : TurnBlind g) : TurnBlind fun s => f (g s) :=
  fun before b s => (congrArg f (hg before b s)).trans (hf before b (g s))

/-! Every operation a step of a command is made of is blind to the turn. -/

theorem emit_turnBlind (e : Event) : TurnBlind (emit e) := fun before b s => by simp [emit, inTurn]

theorem goto_turnBlind (m : Micro) : TurnBlind (goto m) := fun _ _ _ => rfl

theorem setPhase_turnBlind (p : Phase) : TurnBlind (setPhase p) :=
  (emit_turnBlind _).comp (g := fun s => { s with phase := p }) fun _ _ _ => rfl

theorem respond_turnBlind (st : Status) (payload : Option ControllerState) : TurnBlind (respond st payload) :=
  (emit_turnBlind _).comp (goto_turnBlind .idle)

theorem issue_turnBlind (r : Request) : TurnBlind (issue r) :=
  (emit_turnBlind _).comp (g := fun s => { s with inflight := some r }) fun _ _ _ => rfl

theorem takeAnswer_turnBlind (a : Answer) (rest : List Answer) : TurnBlind (takeAnswer a rest) :=
  (emit_turnBlind _).comp (g := fun s => { s with inflight := none, answers := rest, stale := 0 }) fun _ _ _ => rfl

theorem settleFor_turnBlind (micros : Nat) (m : Micro) : TurnBlind (settleFor micros m) :=
  (goto_turnBlind m).comp (emit_turnBlind _)

theorem failInit_turnBlind (e : Status) : TurnBlind (failInit e) := (respond_turnBlind _ _).comp (setPhase_turnBlind _)

theorem failPoll_turnBlind (e : Status) : TurnBlind (failPoll e) := respond_turnBlind _ _

theorem formatSelected_turnBlind : TurnBlind formatSelected := (goto_turnBlind _).comp (setPhase_turnBlind _)

theorem baselineCaptured_turnBlind (rep : Report) : TurnBlind (baselineCaptured rep) :=
  (goto_turnBlind _).comp ((setPhase_turnBlind _).comp (g := calibrateFrom rep) fun _ _ _ => rfl)

theorem initDone_turnBlind : TurnBlind initDone := (respond_turnBlind _ _).comp (setPhase_turnBlind _)

theorem pollDone_turnBlind (rep : Report) : TurnBlind (pollDone rep) := fun before b s =>
  respond_turnBlind .ok (some (decodeReport rep s.bl)) before b (storeCs (decodeReport rep s.bl) s)

theorem afterWrite_turnBlind {failed done : State → State} (hf : TurnBlind failed) (hd : TurnBlind done) (a : Answer) :
    TurnBlind (afterWrite failed done a) := by
  cases a with
  | err => exact hf
  | ok n d => exact hd

theorem afterRead_turnBlind {failed : Status → State → State} {done : Report → State → State}
    (hf : ∀ e, TurnBlind (failed e)) (hd : ∀ rep, TurnBlind (done rep)) (a : Answer) :
    TurnBlind (afterRead failed done a) := by
  intro before b s
  cases a with
  | err => exact hf _ before b s
  | ok n d =>
    simp only [afterRead]
    split
    · exact hf _ before b s
    · exact hd d before b s

/-- A request is issued, waits or is answered alike in every turn, where what follows its answer is blind to the turn. -/
theorem transact_turnBlind (r : Request) {k : Answer → State → State} (hk : ∀ a, TurnBlind (k a)) :
    TurnBlind (transact r k) := by
  intro before b s
  have hi : (inTurn before b s).inflight = s.inflight := rfl
  have ha : answerFor (inTurn before b s) = answerFor s := rfl
  unfold transact
  rw [hi, ha]
  split
  · exact issue_turnBlind r before b s
  · split
    · rfl
    · exact (hk _).comp (takeAnswer_turnBlind _ _) before b s

theorem readReport_turnBlind (at_ : ReadStep → Micro) {failed : Status → State → State} {done : Report → State → State}
    (hf : ∀ e, TurnBlind (failed e)) (hd : ∀ rep, TurnBlind (done rep)) (r : ReadStep) :
    TurnBlind (readReport at_ failed done r) := by
  cases r with
  | select => exact transact_turnBlind _ (afterWrite_turnBlind (hf _) (goto_turnBlind _))
  | settle => exact settleFor_turnBlind _ _
  | read => exact transact_turnBlind _ (afterRead_turnBlind hf hd)

/-- A step of the command in progress is blind to the turn it is taken in (00_scope.md R7). -/
theorem microStep_turnBlind : TurnBlind microStep := by
  intro before b s
  unfold microStep
  rw [inTurn_micro]
  split
  · rfl
  · exact transact_turnBlind _ (afterWrite_turnBlind (failInit_turnBlind _) (goto_turnBlind _)) before b s
  · exact settleFor_turnBlind _ _ before b s
  · exact transact_turnBlind _ (afterWrite_turnBlind (failInit_turnBlind _) (goto_turnBlind _)) before b s
  · exact settleFor_turnBlind _ _ before b s
  · exact transact_turnBlind _ (afterWrite_turnBlind (failInit_turnBlind _) formatSelected_turnBlind) before b s
  · exact settleFor_turnBlind _ _ before b s
  · exact readReport_turnBlind _ failInit_turnBlind baselineCaptured_turnBlind _ before b s
  · exact initDone_turnBlind before b s
  · exact readReport_turnBlind _ failPoll_turnBlind (fun _ => goto_turnBlind _) _ before b s
  · exact pollDone_turnBlind _ before b s

/-- What holds of one step in progress holds of a run of them: it is blind to the turn. -/
theorem runMicro_turnBlind (n : Nat) : TurnBlind (runMicro n) := by
  induction n with
  | zero => exact fun _ _ _ => rfl
  | succ n ih => exact ih.comp microStep_turnBlind

theorem runMicro_setBurst (n b : Nat) (s : State) : runMicro n (s.setBurst b) = (runMicro n s).setBurst b :=
  runMicro_turnBlind n [] b s

/-! How a turn that leaves a command in progress depends on its length. -/

/-- A command that its first turn leaves in progress began as some state, the same for every turn length, and the turn
went on from there. -/
theorem exec_eq_runMicro_of_busy {i : Instr} {s t : State} (h : exec i s = .next t) (ht : t.micro ≠ .idle) :
    ∃ a : State, a.rst = s.rst ∧ ∀ b, exec i (s.setBurst b) = .next (runMicro b (a.setBurst b)) := by
  cases i with
  | init => exact ⟨beginInitialize s, rfl, fun b => rfl⟩
  | poll =>
    by_cases hr : s.isReady = true
    · exact ⟨goto (.poll .select) (accept .poll s), rfl, fun b => if_pos hr⟩
    · have h' : respond .notReadyError none (accept .poll s) = t :=
        Host.Outcome.next.inj ((if_neg hr).symm.trans h)
      exact absurd (h' ▸ rfl) ht
  | decode rep =>
    refine absurd ?_ ht
    simp only [exec, execDecode] at h
    split at h <;> cases h <;> rfl
  | calibrate rep =>
    refine absurd ?_ ht
    simp only [exec, execCalibrate] at h
    split at h <;> cases h <;> rfl

/-- A turn that leaves a command in progress is a run of micro-steps, from a state that does not depend on the turn's
length: one step more than the length where it goes on with the command, as many where it accepts it. -/
theorem step_eq_runMicro_of_busy {s t : State} {m : Nat} (hrst : s.rst = false) (h : step (s.setBurst m) = .next t)
    (ht : t.micro ≠ .idle) :
    ∃ (a : State) (k : Nat), a.rst = false ∧ ∀ b, step (s.setBurst b) = .next (runMicro (b + k) (a.setBurst b)) := by
  by_cases hm : s.micro = .idle
  · cases hc : s.cmds with
    | nil =>
      rw [step_wait (s := s.setBurst m) hrst hm hc] at h
      cases h
      exact absurd hm ht
    | cons w rest =>
      have accepts b : step (s.setBurst b) = exec (decodeCommand w) ((takeCommand rest s).setBurst b) :=
        step_command (s := s.setBurst b) hrst hm hc
      obtain ⟨a, ha, hrun⟩ := exec_eq_runMicro_of_busy ((accepts m).symm.trans h) ht
      exact ⟨a, 0, ha.trans hrst, fun b => (accepts b).trans (hrun b)⟩
  · exact ⟨idleTurn s, 1, hrst, fun b => step_resume (s := s.setBurst b) hrst hm⟩

/-- Settles O44: the second turn's steps are blind to what the first has driven, so the long turn ends in the second's
last state with the first's outputs before its own. -/
theorem turnsCompose : Obligations.TurnsCompose := by
  intro s t u m n hrst hst ht htu
  obtain ⟨a, k, ha, hrun⟩ := step_eq_runMicro_of_busy hrst hst ht
  have et : runMicro (m + k) (a.setBurst m) = t := Host.Outcome.next.inj ((hrun m).symm.trans hst)
  have htrst : t.rst = false := by rw [← et, (runMicro_extends _ _).rst]; exact ha
  have eu : runMicro (n + 1) (idleTurn (t.setBurst n)) = u :=
    Host.Outcome.next.inj ((step_resume (s := t.setBurst n) htrst ht).symm.trans htu)
  have ub : u.burst = n := by rw [← eu, (runMicro_extends _ _).burst]; rfl
  have long : runMicro (m + n + 1 + k) (a.setBurst (m + n + 1)) = inTurn t.out (m + n + 1) u := calc
    _ = runMicro (n + 1) (runMicro (m + k) ((a.setBurst m).setBurst (m + n + 1))) := by
      rw [← runMicro_add, show m + k + (n + 1) = m + n + 1 + k by omega]; rfl
    _ = runMicro (n + 1) (t.setBurst (m + n + 1)) := by rw [runMicro_setBurst (m + k), et]
    _ = runMicro (n + 1) (inTurn t.out (m + n + 1) (idleTurn (t.setBurst n))) := by rw [inTurn_idleTurn]
    _ = inTurn t.out (m + n + 1) u := by rw [runMicro_turnBlind, eu]
  refine ⟨inTurn t.out (m + n + 1) u, (hrun _).trans (congrArg _ long), rfl, ?_⟩
  subst ub
  rfl

end Sys2Proof.Machine
end

section
/-! PROOF. What a turn begins with, said once for every step that is no reset (10_state.md R33, 00_scope.md R7): a command
goes on, or nothing is to be done, or a command is accepted; the micro-steps of the turn follow. -/

namespace Sys2Proof.Machine

theorem isReady_eq_true {s : State} : s.isReady = true ↔ s.phase = .ready := by simp [State.isReady]

/-- What the acceptance of a command makes of a state, before any micro-step that follows it in the turn. -/
inductive Accepts (s : State) : Instr → State → Prop where
  | init : Accepts s .init (beginInitialize s)
  | poll (h : s.phase = .ready) : Accepts s .poll (goto (.poll .select) (accept .poll s))
  | decode {rep : Report} (h : s.phase = .ready) :
      Accepts s (.decode rep) (respond .ok (some (decodeReport rep s.bl)) (accept (.decode rep) s))
  | calibrate {rep : Report} (h : s.phase = .ready) :
      Accepts s (.calibrate rep) (respond .ok none (discardCs (calibrateFrom rep (accept (.calibrate rep) s))))
  | refused {i : Instr} (hi : i ≠ .init) (h : s.phase ≠ .ready) :
      Accepts s i (respond .notReadyError none (accept i s))

theorem exists_accepts (i : Instr) (s : State) : ∃ u, Accepts s i u := by
  by_cases h : s.phase = .ready
  · cases i with
    | init => exact ⟨_, .init⟩
    | poll => exact ⟨_, .poll h⟩
    | decode rep => exact ⟨_, .decode h⟩
    | calibrate rep => exact ⟨_, .calibrate h⟩
  · by_cases hi : i = .init
    · exact ⟨beginInitialize s, hi ▸ .init⟩
    · exact ⟨_, .refused hi h⟩

/-- A command's first turn is its acceptance and as many micro-steps as the turn has; there are none left to do where
the acceptance has ended the command. -/
theorem Accepts.exec_eq {s u : State} {i : Instr} (h : Accepts s i u) : exec i s = .next (runMicro s.burst u) := by
  cases h with
  | init => rfl
  | poll h => exact if_pos (isReady_eq_true.mpr h)
  | decode h => rw [runMicro_fixed (microStep_idle rfl)]; exact if_pos (isReady_eq_true.mpr h)
  | calibrate h => rw [runMicro_fixed (microStep_idle rfl)]; exact if_pos (isReady_eq_true.mpr h)
  | refused hi h =>
    rw [runMicro_fixed (microStep_idle rfl)]
    have hr : ¬ s.isReady = true := mt isReady_eq_true.mp h
    cases i with
    | init => exact absurd rfl hi
    | poll => exact if_neg hr
    | decode rep => exact if_neg hr
    | calibrate rep => exact if_neg hr

/-- What a turn that is no reset begins with, and how many micro-steps follow. -/
inductive TurnBegins (s : State) : State → Nat → Prop where
  | goesOn (hm : s.micro ≠ .idle) : TurnBegins s (idleTurn s) (s.burst + 1)
  | waits (hm : s.micro = .idle) (hc : s.cmds = []) : TurnBegins s (idleTurn s) 0
  | accepts {w : CommandWord} {rest : List CommandWord} {u : State} (hm : s.micro = .idle) (hc : s.cmds = w :: rest)
      (h : Accepts (takeCommand rest s) (decodeCommand w) u) : TurnBegins s u s.burst

theorem exists_turnBegins (s : State) : ∃ u n, TurnBegins s u n := by
  by_cases hm : s.micro = .idle
  · cases hc : s.cmds with
    | nil => exact ⟨_, _, .waits hm hc⟩
    | cons w rest =>
      obtain ⟨u, hu⟩ := exists_accepts (decodeCommand w) (takeCommand rest s)
      exact ⟨u, _, .accepts hm hc hu⟩
  · exact ⟨_, _, .goesOn hm⟩

theorem TurnBegins.step_eq {s u : State} {n : Nat} (h : TurnBegins s u n) (hr : s.rst = false) :
    step s = .next (runMicro n u) := by
  cases h with
  | goesOn hm => exact step_resume hr hm
  | waits hm hc => exact step_wait hr hm hc
  | accepts hm hc h => exact (step_command hr hm hc).trans h.exec_eq

/-- What holds after a reset and of what a turn begins with, and is kept by every micro-step, holds after a step. -/
theorem step_induction {P : State → Prop} {s t : State} (hst : step s = .next t)
    (reset : s.rst = true → P (resetBlock s)) (begins : ∀ u n, TurnBegins s u n → P u)
    (micro : ∀ u v, MicroEffect u v → P u → P v) : P t := by
  by_cases hr : s.rst = true
  · rw [step_reset hr] at hst
    cases hst
    exact reset hr
  · obtain ⟨u, n, hu⟩ := exists_turnBegins s
    rw [hu.step_eq (Bool.eq_false_iff.mpr hr)] at hst
    cases hst
    exact runMicro_keeps (fun v hv => micro v _ (microStep_effect v) hv) n (begins u n hu)

end Sys2Proof.Machine
end

section
/-! PROOF. The invariant of the machine (10_state.md R29 to R31): the rules of the shared operations first, then every
micro-step, every acceptance and every step. -/

namespace Sys2Proof.Machine

theorem StateInv.fits {s : State} {m : Micro} (hs : StateInv s) (hm : s.micro = m) : phaseFits m s.phase :=
  hm ▸ hs.phaseOfMicro

theorem StateInv.inflight_none {s : State} (hs : StateInv s) (h : s.micro.request = none) : s.inflight = none :=
  Option.eq_none_iff_forall_ne_some.mpr fun r hr => by simp [hs.inflightOfMicro r hr] at h

theorem StateInv.csValid_false {s : State} (hs : StateInv s) (hp : s.phase ≠ .ready) : s.csValid = false :=
  Bool.eq_false_iff.mpr (mt hs.validInReady hp)

/-- Where CS_VALID is 0 and no request is outstanding, only the phase has to fit. -/
theorem StateInv.of_csValid_false {s : State} (hfit : phaseFits s.micro s.phase) (hv : s.csValid = false)
    (hi : s.inflight = none) : StateInv s :=
  ⟨hfit, by simp [hv], by simp [hv], by simp [hi]⟩

theorem stateInv_emit {s : State} (e : Event) (hs : StateInv s) : StateInv (emit e s) :=
  ⟨hs.phaseOfMicro, hs.validInReady, hs.csDecoded, hs.inflightOfMicro⟩

theorem stateInv_idleTurn {s : State} (hs : StateInv s) : StateInv (idleTurn s) :=
  ⟨hs.phaseOfMicro, hs.validInReady, hs.csDecoded, hs.inflightOfMicro⟩

theorem stateInv_takeCommand {s : State} (rest : List CommandWord) (hs : StateInv s) : StateInv (takeCommand rest s) :=
  ⟨hs.phaseOfMicro, hs.validInReady, hs.csDecoded, hs.inflightOfMicro⟩

theorem stateInv_goto {s : State} {m : Micro} (hs : StateInv s) (hfit : phaseFits m s.phase) (hi : s.inflight = none) :
    StateInv (goto m s) :=
  ⟨hfit, hs.validInReady, hs.csDecoded, by simp [hi]⟩

theorem stateInv_respond {s : State} (e : Status) (v : Option ControllerState) (hs : StateInv s)
    (hfit : phaseFits .idle s.phase) (hi : s.inflight = none) : StateInv (respond e v s) :=
  stateInv_emit _ (stateInv_goto hs hfit hi)

theorem stateInv_takeAnswer {s : State} (a : Answer) (rest : List Answer) (hs : StateInv s) :
    StateInv (takeAnswer a rest s) :=
  ⟨hs.phaseOfMicro, hs.validInReady, hs.csDecoded, by simp⟩

theorem stateInv_accept {s : State} (i : Instr) (hs : StateInv s) (hm : s.micro = .idle) : StateInv (accept i s) :=
  ⟨hs.fits hm, hs.validInReady, hs.csDecoded, by simp⟩

theorem stateInv_failInit {s : State} (e : Status) (hs : StateInv s) (hp : s.phase ≠ .ready) (hi : s.inflight = none) :
    StateInv (failInit e s) :=
  .of_csValid_false (.inl rfl) (hs.csValid_false hp) hi

theorem stateInv_resetBlock (s : State) : StateInv (resetBlock s) :=
  .of_csValid_false (.inl rfl) rfl rfl

/-! Where the micro-steps stand. -/

theorem WritesTo.phaseFits_iff {m m' : Micro} (h : WritesTo m m') (p : Phase) : phaseFits m p ↔ phaseFits m' p := by
  cases h <;> rfl

theorem SettlesTo.phaseFits_iff {m m' : Micro} {n : Nat} (h : SettlesTo m n m') (p : Phase) :
    phaseFits m p ↔ phaseFits m' p := by
  cases h <;> rfl

theorem SettlesTo.request_none {m m' : Micro} {n : Nat} (h : SettlesTo m n m') : m.request = none := by
  cases h <;> rfl

/-- The requests of `INITIALIZE` are made in `Unlocking` or `ModeConfigured` (40_initialize.md R92). -/
theorem phase_of_initRequest {m : Micro} {p : Phase} (hc : m.command = some .init) (hr : m.request ≠ none)
    (hp : phaseFits m p) : p = .unlocking ∨ p = .modeConfigured := by
  cases m <;> simp_all [Micro.command, Micro.request, phaseFits]

/-- The requests of `POLL` are made in `Ready` (41_poll.md R112). -/
theorem phase_of_poll {m : Micro} {p : Phase} (hc : m.command = some .poll) (hp : phaseFits m p) : p = .ready := by
  cases m <;> simp_all [Micro.command, phaseFits]

/-! Every micro-step. -/

theorem Answered.keeps_inv {m : Micro} {a : Answer} {s t : State} (h : Answered m a s t) (hm : s.micro = m)
    (hs : StateInv s) (hi : s.inflight = none) : StateInv t := by
  have hfit := hs.fits hm
  cases h with
  | wrote h => exact stateInv_goto hs ((h.phaseFits_iff _).mp hfit) hi
  | format h =>
    subst h
    exact .of_csValid_false rfl (hs.csValid_false (by rw [hfit]; decide)) hi
  | captured h =>
    subst h
    exact .of_csValid_false rfl (hs.csValid_false (by rw [hfit]; decide)) hi
  | polled h =>
    subst h
    exact stateInv_goto hs hfit hi
  | initError h hr =>
    obtain hp | hp := phase_of_initRequest h hr hfit <;> exact stateInv_failInit _ hs (by rw [hp]; decide) hi
  | pollError h hr => exact stateInv_respond _ _ hs (.inr (phase_of_poll h hfit)) hi
  | initShort h =>
    subst h
    exact stateInv_failInit _ hs (by rw [hfit]; decide) hi
  | pollShort h =>
    subst h
    exact stateInv_respond _ _ hs (.inr hfit) hi

theorem MicroEffect.keeps_inv {s t : State} (h : MicroEffect s t) (hs : StateInv s) : StateInv t := by
  cases h with
  | idle h => exact hs
  | waits hr hi hc => exact hs
  | issues hr hi =>
    exact stateInv_emit _ ⟨hs.phaseOfMicro, hs.validInReady, hs.csDecoded, fun q hq => Option.some.inj hq ▸ hr⟩
  | answered hr hi hc h => exact h.keeps_inv rfl (stateInv_takeAnswer _ _ hs) rfl
  | settles h =>
    exact stateInv_goto (stateInv_emit _ hs) ((h.phaseFits_iff _).mp hs.phaseOfMicro) (hs.inflight_none h.request_none)
  | finishesInit h =>
    have hp : s.phase = .calibrated := hs.fits h
    exact .of_csValid_false (.inr rfl) (hs.csValid_false (by rw [hp]; decide)) (hs.inflight_none (by rw [h]; rfl))
  | @finishesPoll rep h =>
    have hp : s.phase = .ready := hs.fits h
    exact ⟨.inr hp, fun _ => hp, fun _ => ⟨rep, rfl⟩, fun r hr => by
      have hi : s.inflight = none := hs.inflight_none (by rw [h]; rfl)
      exact absurd (hi.symm.trans hr) (by simp)⟩

/-! Every acceptance and every step. -/

theorem Accepts.keeps_inv {s u : State} {i : Instr} (h : Accepts s i u) (hs : StateInv s) (hm : s.micro = .idle) :
    StateInv u := by
  have ha (i : Instr) : StateInv (accept i s) := stateInv_accept i hs hm
  cases h with
  | init => exact .of_csValid_false rfl rfl rfl
  | poll h => exact stateInv_goto (ha _) h rfl
  | decode h => exact stateInv_respond _ _ (ha _) (.inr h) rfl
  | calibrate h => exact .of_csValid_false (.inr h) rfl rfl
  | refused hi h => exact stateInv_respond _ _ (ha _) (hs.fits hm) rfl

theorem TurnBegins.keeps_inv {s u : State} {n : Nat} (h : TurnBegins s u n) (hs : StateInv s) : StateInv u := by
  cases h with
  | goesOn hm => exact stateInv_idleTurn hs
  | waits hm hc => exact stateInv_idleTurn hs
  | accepts hm hc h => exact h.keeps_inv (stateInv_takeCommand _ hs) hm

/-- Settles O45: a reset meets the invariant from any state, and what a turn begins with and every micro-step keep it. -/
theorem invariantIsKept : Obligations.InvariantIsKept := fun s _ hs hst =>
  step_induction hst (fun _ => stateInv_resetBlock s) (fun _ _ hu => hu.keeps_inv hs) fun _ _ h => h.keeps_inv

/-- What holds after a reset and of what a turn begins with, and is kept by every micro-step from a state of the
invariant, holds after a step from one. -/
theorem step_induction_inv {P : State → Prop} {s t : State} (hs : StateInv s) (hst : step s = .next t)
    (reset : s.rst = true → P (resetBlock s)) (begins : ∀ u n, TurnBegins s u n → P u)
    (micro : ∀ u v, MicroEffect u v → StateInv u → P u → P v) : P t :=
  (step_induction (P := fun u => StateInv u ∧ P u) hst (fun hr => ⟨stateInv_resetBlock s, reset hr⟩)
    (fun u n hu => ⟨hu.keeps_inv hs, begins u n hu⟩) fun u v h hu => ⟨h.keeps_inv hu.1, micro u v h hu.1 hu.2⟩).2

/-- Settles O46: after reset the block is idle in `Uninitialized`, CS_VALID is 0 and no request is outstanding. -/
theorem invariantHoldsAtReset : Obligations.InvariantHoldsAtReset :=
  .of_csValid_false (.inl rfl) rfl rfl

end Sys2Proof.Machine
end

section
/-! PROOF. What a micro-step shows on the channels, said once, and what follows for a turn: the phases it takes (10_state.md
R29), the transport channel (20_memory.md R62), the command channel (R33) and the response channel (R34). -/

namespace Sys2Proof.Machine

/-- What the events of a micro-step have to do with the states before and after it. -/
structure Shows (s t : State) (es : List Event) : Prop where
  out : t.out = s.out ++ es
  channel : channelPath s.inflight es t.inflight
  phases : phaseFits s.micro s.phase → phasePath s.phase (phasesOf es) t.phase
  noneAccepted : ∀ i, .accepted i ∉ es
  /-- A response is delivered exactly where the command ends. -/
  responses : (responsesOf es = [] ∧ (t.micro = .idle ↔ s.micro = .idle)) ∨
    ((responsesOf es).length = 1 ∧ t.micro = .idle ∧ s.micro ≠ .idle)

theorem shows_nothing (s : State) : Shows s s [] :=
  ⟨by simp, rfl, fun _ => rfl, by simp, .inl ⟨rfl, .rfl⟩⟩

/-- A command in progress goes on to a further micro-step and shows nothing. -/
theorem shows_goto {s : State} {m : Micro} (hs : s.micro ≠ .idle) (hm : m ≠ .idle) : Shows s (goto m s) [] :=
  ⟨by simp, rfl, fun _ => rfl, by simp, .inl ⟨rfl, by simp [hs, hm]⟩⟩

/-- PHASE is written along an edge, and the command goes on. -/
theorem shows_phase {s t : State} {p : Phase} (hs : s.micro ≠ .idle) (ht : t.micro ≠ .idle)
    (ho : t.out = s.out ++ [.phase p]) (hp : t.phase = p) (hi : t.inflight = s.inflight)
    (he : phaseFits s.micro s.phase → s.phase.edge p = true) : Shows s t [.phase p] :=
  ⟨ho, hi.symm, fun h => ⟨he h, hp.symm⟩, by simp, .inl ⟨rfl, by simp [hs, ht]⟩⟩

/-- A command ends with its response, PHASE unchanged. -/
theorem shows_respond {s t : State} (hs : s.micro ≠ .idle) (e : Status) (v : Option ControllerState)
    (ho : t.out = s.out) (hp : t.phase = s.phase) (hi : t.inflight = s.inflight) :
    Shows s (respond e v t) [.response ⟨e, v⟩] :=
  ⟨by simp [ho], hi.symm, fun _ => hp.symm, by simp, .inr ⟨rfl, rfl, hs⟩⟩

/-- A command of `INITIALIZE` ends with PHASE written along an edge and its response. -/
theorem shows_respond_setPhase {s : State} {p : Phase} (hs : s.micro ≠ .idle) (e : Status)
    (he : phaseFits s.micro s.phase → s.phase.edge p = true) :
    Shows s (respond e none (setPhase p s)) [.phase p, .response ⟨e, none⟩] :=
  ⟨by simp, rfl, fun h => ⟨he h, rfl⟩, by simp, .inr ⟨rfl, rfl, hs⟩⟩

theorem Micro.ne_idle_of_request {m : Micro} (h : m.request ≠ none) : m ≠ .idle := by
  rintro rfl; exact h rfl

theorem WritesTo.ne_idle {m m' : Micro} (h : WritesTo m m') : m' ≠ .idle := by cases h <;> decide

theorem SettlesTo.ne_idle {m m' : Micro} {n : Nat} (h : SettlesTo m n m') : m ≠ .idle ∧ m' ≠ .idle := by
  cases h <;> decide

/-- A failing `INITIALIZE` goes back to `Uninitialized` along an edge, from either of its phases with requests. -/
theorem edge_of_initRequest {m : Micro} {p : Phase} (hc : m.command = some .init) (hr : m.request ≠ none)
    (hp : phaseFits m p) : p.edge .uninitialized = true := by
  obtain rfl | rfl := phase_of_initRequest hc hr hp <;> rfl

theorem Answered.exists_shows {m : Micro} {a : Answer} {s t : State} (h : Answered m a s t) (hm : s.micro = m)
    (hr : m.request ≠ none) : ∃ es, Shows s t es := by
  subst hm
  have hs := Micro.ne_idle_of_request hr
  cases h with
  | wrote h => exact ⟨_, shows_goto hs h.ne_idle⟩
  | format h =>
    exact ⟨_, shows_phase (p := .modeConfigured) hs nofun rfl rfl rfl fun hf => by
      rw [h] at hf; rw [show s.phase = .unlocking from hf]; rfl⟩
  | captured h =>
    exact ⟨_, shows_phase (p := .calibrated) hs nofun rfl rfl rfl fun hf => by
      rw [h] at hf; rw [show s.phase = .modeConfigured from hf]; rfl⟩
  | polled h => exact ⟨_, shows_goto hs nofun⟩
  | initError h hr => exact ⟨_, shows_respond_setPhase hs _ (edge_of_initRequest h hr)⟩
  | pollError h hr => exact ⟨_, shows_respond hs _ _ rfl rfl rfl⟩
  | initShort h => exact ⟨_, shows_respond_setPhase hs _ (edge_of_initRequest (h ▸ rfl) hr)⟩
  | pollShort h => exact ⟨_, shows_respond hs _ _ rfl rfl rfl⟩

/-- What an answer leads to, seen from before it is taken. -/
theorem Shows.after_takeAnswer {s t : State} {a : Answer} {rest : List Answer} {es : List Event} {q : Request}
    (h : Shows (takeAnswer a rest s) t es) (hi : s.inflight = some q) : Shows s t (.answer a :: es) :=
  ⟨by simp [h.out], ⟨by simp [hi], h.channel⟩, h.phases, by simpa using h.noneAccepted, h.responses⟩

theorem MicroEffect.exists_shows {s t : State} (h : MicroEffect s t) : ∃ es, Shows s t es := by
  cases h with
  | idle h => exact ⟨_, shows_nothing s⟩
  | waits hr hi hc => exact ⟨_, shows_nothing s⟩
  | issues hr hi => exact ⟨[.request _], rfl, ⟨hi, rfl⟩, fun _ => rfl, by simp, .inl ⟨rfl, .rfl⟩⟩
  | answered hr hi hc h =>
    obtain ⟨es, hes⟩ := h.exists_shows rfl hr
    exact ⟨_, hes.after_takeAnswer hi⟩
  | settles h =>
    obtain ⟨hs, ht⟩ := h.ne_idle
    exact ⟨[.settle _], rfl, rfl, fun _ => rfl, by simp, .inl ⟨rfl, by simp [hs, ht]⟩⟩
  | finishesInit h =>
    exact ⟨_, shows_respond_setPhase (by simp [h]) _ fun hf => by
      rw [h] at hf; rw [show s.phase = .calibrated from hf]; rfl⟩
  | finishesPoll h => exact ⟨_, shows_respond (by simp [h]) _ _ rfl rfl rfl⟩

/-! The transitions of PHASE. -/

/-- Acceptance writes PHASE for `INITIALIZE` only, from either phase of an idle block (10_state.md R29). -/
theorem Accepts.phasePath_out {s u : State} {i : Instr} (h : Accepts s i u) (hp : phaseFits .idle s.phase) :
    phasePath s.phase (phasesOf u.out) u.phase := by
  cases h with
  | init => exact ⟨by obtain hp | hp := hp <;> rw [hp] <;> rfl, rfl⟩
  | poll h => rfl
  | decode h => rfl
  | calibrate h => rfl
  | refused hi h => rfl

theorem TurnBegins.phasePath_out {s u : State} {n : Nat} (h : TurnBegins s u n) (hs : StateInv s) :
    phasePath s.phase (phasesOf u.out) u.phase := by
  cases h with
  | goesOn hm => rfl
  | waits hm hc => rfl
  | accepts hm hc h => exact h.phasePath_out (hs.fits hm)

/-- Settles O47: each micro-step prolongs the path of the phases shown before it in the turn. -/
theorem phaseFollowsTheTable : Obligations.PhaseFollowsTheTable := by
  intro s t hs hr hst
  refine step_induction_inv hs hst (fun h => by simp [hr] at h) (fun u n hu => hu.phasePath_out hs)
    fun u v h hu hpath => ?_
  obtain ⟨es, hes⟩ := h.exists_shows
  rw [hes.out, phasesOf_append]
  exact phasePath_append hpath (hes.phases hu.phaseOfMicro)

/-! The transport channel. -/

theorem Accepts.channelPath_out {s u : State} {i : Instr} (h : Accepts s i u) : channelPath none u.out u.inflight := by
  cases h <;> rfl

/-- A turn begins with no request and no answer: between commands none is outstanding. -/
theorem TurnBegins.channelPath_out {s u : State} {n : Nat} (h : TurnBegins s u n) (hs : StateInv s) :
    channelPath s.inflight u.out u.inflight := by
  cases h with
  | goesOn hm => rfl
  | waits hm hc => rfl
  | accepts hm hc h => rw [hs.inflight_none (by rw [hm]; rfl)]; exact h.channelPath_out

/-- Settles O32: each micro-step prolongs the channel's path through the events shown before it in the turn. -/
theorem oneRequestAtATime : Obligations.OneRequestAtATime := by
  intro s t hs hr hst
  refine step_induction hst (fun h => by simp [hr] at h) (fun u n hu => hu.channelPath_out hs) fun u v h hpath => ?_
  obtain ⟨es, hes⟩ := h.exists_shows
  rw [hes.out]
  exact channelPath_append hpath hes.channel

/-! The command channel. -/

theorem MicroEffect.noneAccepted {s t : State} {i : Instr} (h : MicroEffect s t) (hs : .accepted i ∉ s.out) :
    .accepted i ∉ t.out := by
  obtain ⟨es, hes⟩ := h.exists_shows
  simp [hes.out, hs, hes.noneAccepted i]

/-- Settles O41: a busy block's turn begins with nothing shown, and no micro-step accepts a command. -/
theorem busyBlockAcceptsNothing : Obligations.BusyBlockAcceptsNothing := by
  intro s t hr hm hst
  rw [step_resume hr hm] at hst
  cases hst
  refine ⟨(runMicro_extends _ _).cmds, fun i => ?_⟩
  have hs : .accepted i ∉ (idleTurn s).out := List.not_mem_nil
  exact runMicro_keeps (P := fun u => .accepted i ∉ u.out) (fun u => (microStep_effect u).noneAccepted) _ hs

/-! The response channel. -/

/-- The responses of a turn so far: one where the command has ended, none while it is in progress; none as well where the
turn found the block idle (`quiet`) and no command came. -/
def RespondedAtEnd (quiet : Prop) (u : State) : Prop :=
  (u.micro ≠ .idle ∧ responsesOf u.out = []) ∨
  (u.micro = .idle ∧ ((responsesOf u.out).length = 1 ∨ responsesOf u.out = [] ∧ quiet))

theorem RespondedAtEnd.none_of_busy {quiet : Prop} {u : State} (h : RespondedAtEnd quiet u) (hu : u.micro ≠ .idle) :
    responsesOf u.out = [] := by
  obtain ⟨-, hn⟩ | ⟨hi, -⟩ := h
  · exact hn
  · exact absurd hi hu

theorem Accepts.respondedAtEnd {s u : State} {i : Instr} (h : Accepts s i u) (quiet : Prop) :
    RespondedAtEnd quiet u := by
  cases h with
  | init => exact .inl ⟨nofun, rfl⟩
  | poll h => exact .inl ⟨nofun, rfl⟩
  | decode h => exact .inr ⟨rfl, .inl rfl⟩
  | calibrate h => exact .inr ⟨rfl, .inl rfl⟩
  | refused hi h => exact .inr ⟨rfl, .inl rfl⟩

theorem TurnBegins.respondedAtEnd {s u : State} {n : Nat} (h : TurnBegins s u n) :
    RespondedAtEnd (s.micro = .idle ∧ s.cmds = []) u := by
  cases h with
  | goesOn hm => exact .inl ⟨hm, rfl⟩
  | waits hm hc => exact .inr ⟨hm, .inr ⟨rfl, hm, hc⟩⟩
  | accepts hm hc h => exact h.respondedAtEnd _

theorem MicroEffect.respondedAtEnd {quiet : Prop} {u v : State} (h : MicroEffect u v) (hu : RespondedAtEnd quiet u) :
    RespondedAtEnd quiet v := by
  obtain ⟨es, hes⟩ := h.exists_shows
  have hout : responsesOf v.out = responsesOf u.out ++ responsesOf es := by rw [hes.out, responsesOf_append]
  obtain ⟨hn, hiff⟩ | ⟨hone, hv, hbusy⟩ := hes.responses
  · simpa [RespondedAtEnd, hout, hn, hiff] using hu
  · rw [hu.none_of_busy hbusy, List.nil_append] at hout
    exact .inr ⟨hv, .inl (hout ▸ hone)⟩

/-- Settles O42: the responses of every turn without reset stand as `RespondedAtEnd` says. -/
theorem oneResponseEndsACommand : Obligations.OneResponseEndsACommand := by
  intro s t hr hst
  have ht : RespondedAtEnd (s.micro = .idle ∧ s.cmds = []) t :=
    step_induction hst (fun h => by simp [hr] at h) (fun u n hu => hu.respondedAtEnd) fun u v h => h.respondedAtEnd
  obtain ⟨hbusy, hn⟩ | ⟨hi, hone | ⟨hn, hm, hc⟩⟩ := ht
  · exact ⟨by simp [hn], fun h => absurd hn h, fun _ h => absurd h hbusy⟩
  · exact ⟨hone.le, fun _ => hi, fun _ _ => hone⟩
  · exact ⟨by simp [hn], fun _ => hi, fun h => by simp [hm, hc] at h⟩

end Sys2Proof.Machine
end

section
/-! PROOF. Who writes `CS` and `BL` (10_state.md R21, R26, R27): followed through a turn from what it begins with. -/

namespace Sys2Proof.Machine

theorem MicroEffect.eq_of_idle {s t : State} (h : MicroEffect s t) (hs : s.micro = .idle) : t = s := by
  cases h with
  | idle h => rfl
  | waits hr hi hc => rfl
  | issues hr hi => simp [hs, Micro.request] at hr
  | answered hr hi hc h => exact absurd hs (Micro.ne_idle_of_request hr)
  | settles h => exact absurd hs h.ne_idle.1
  | finishesInit h => simp [hs] at h
  | finishesPoll h => simp [hs] at h

theorem MicroEffect.mem_out {s t : State} {e : Event} (h : MicroEffect s t) (he : e ∈ s.out) : e ∈ t.out := by
  obtain ⟨es, hes⟩ := h.exists_shows
  rw [hes.out]
  exact List.mem_append_left _ he

theorem Answered.cs_eq {m : Micro} {a : Answer} {s t : State} (h : Answered m a s t) :
    t.cs = s.cs ∧ t.csValid = s.csValid := by
  cases h <;> exact ⟨rfl, rfl⟩

/-- Only P4 writes `CS` and CS_VALID (41_poll.md R114). -/
theorem MicroEffect.cs_cases {s t : State} (h : MicroEffect s t) :
    (t.cs = s.cs ∧ t.csValid = s.csValid) ∨ ∃ rep, s.micro = .p4 rep ∧ t = pollDone rep s := by
  cases h with
  | idle h => exact .inl ⟨rfl, rfl⟩
  | waits hr hi hc => exact .inl ⟨rfl, rfl⟩
  | issues hr hi => exact .inl ⟨rfl, rfl⟩
  | answered hr hi hc h => exact .inl h.cs_eq
  | settles h => exact .inl ⟨rfl, rfl⟩
  | finishesInit h => exact .inl ⟨rfl, rfl⟩
  | finishesPoll h => exact .inr ⟨_, h, rfl⟩

theorem WritesTo.ne_p4 {m m' : Micro} (h : WritesTo m m') (rep : Report) : m' ≠ .p4 rep := by cases h <;> nofun

theorem SettlesTo.ne_p4 {m m' : Micro} {n : Nat} (h : SettlesTo m n m') (rep : Report) : m' ≠ .p4 rep := by
  cases h <;> nofun

theorem Answered.answer_of_p4 {m : Micro} {a : Answer} {s t : State} {rep : Report} (h : Answered m a s t)
    (ht : t.micro = .p4 rep) : a = .ok 8 rep := by
  cases h with
  | wrote h => exact absurd ht (h.ne_p4 rep)
  | polled h hn => cases ht; exact congrArg (Answer.ok · _) (Fin.ext hn)
  | format h => cases ht
  | captured h hn => cases ht
  | initError h hr => cases ht
  | pollError h hr => cases ht
  | initShort h hn => cases ht
  | pollShort h hn => cases ht

theorem Answered.mem_out {m : Micro} {a : Answer} {s t : State} {e : Event} (h : Answered m a s t) (he : e ∈ s.out) :
    e ∈ t.out := by
  obtain ⟨es, hes⟩ := h.extends.out
  rw [hes]
  exact List.mem_append_left _ he

/-- The report of P4 is the one just read (20_memory.md R68). -/
theorem MicroEffect.report_of_p4 {s t : State} {rep : Report} (h : MicroEffect s t) (ht : t.micro = .p4 rep) :
    s.micro = .p4 rep ∨ .answer (.ok 8 rep) ∈ t.out := by
  cases h with
  | idle h => exact .inl ht
  | waits hr hi hc => exact .inl ht
  | issues hr hi => exact .inl ht
  | answered hr hi hc h =>
    cases h.answer_of_p4 ht
    exact .inr (h.mem_out (by simp))
  | settles h => exact absurd ht (h.ne_p4 rep)
  | finishesInit h => cases ht
  | finishesPoll h => cases ht

/-- What a turn that began in `s` has made of `CS` when it stands in `u`. -/
structure CsWritten (s u : State) : Prop where
  cs : (u.cs = s.cs ∧ u.csValid = s.csValid) ∨ u.csValid = false ∨
    (u.csValid = true ∧ u.phase = .ready ∧ responsesOf u.out = [⟨.ok, some u.cs⟩] ∧
      ∃ rep, u.cs = decodeReport rep u.bl ∧ (s.micro = .p4 rep ∨ .answer (.ok 8 rep) ∈ u.out))
  report : ∀ rep, u.micro = .p4 rep → s.micro = .p4 rep ∨ .answer (.ok 8 rep) ∈ u.out
  quiet : u.micro ≠ .idle → responsesOf u.out = []

theorem Accepts.cs_cases {s u : State} {i : Instr} (h : Accepts s i u) :
    ((u.cs = s.cs ∧ u.csValid = s.csValid) ∨ u.csValid = false) ∧ ∀ rep, u.micro ≠ .p4 rep := by
  cases h with
  | init => exact ⟨.inr rfl, nofun⟩
  | poll h => exact ⟨.inl ⟨rfl, rfl⟩, nofun⟩
  | decode h => exact ⟨.inl ⟨rfl, rfl⟩, nofun⟩
  | calibrate h => exact ⟨.inr rfl, nofun⟩
  | refused hi h => exact ⟨.inl ⟨rfl, rfl⟩, nofun⟩

theorem TurnBegins.csWritten {s u : State} {n : Nat} (h : TurnBegins s u n) : CsWritten s u := by
  have hq := h.respondedAtEnd.none_of_busy
  cases h with
  | goesOn hm => exact ⟨.inl ⟨rfl, rfl⟩, fun _ => .inl, hq⟩
  | waits hm hc => exact ⟨.inl ⟨rfl, rfl⟩, fun _ => .inl, hq⟩
  | accepts hm hc h =>
    obtain ⟨hcs, hp4⟩ := h.cs_cases
    exact ⟨hcs.imp id .inl, fun rep hu => absurd hu (hp4 rep), hq⟩

theorem MicroEffect.csWritten {s u v : State} (h : MicroEffect u v) (hu : StateInv u) (hw : CsWritten s u) :
    CsWritten s v := by
  by_cases hm : u.micro = .idle
  · rwa [h.eq_of_idle hm]
  have hquiet := hw.quiet hm
  refine ⟨?_, fun rep hv => ?_, (h.respondedAtEnd (quiet := True) (.inl ⟨hm, hquiet⟩)).none_of_busy⟩
  · obtain ⟨hcs, hvalid⟩ | ⟨rep, hp4, rfl⟩ := h.cs_cases
    · obtain hsame | hinvalid | ⟨-, -, hone, -⟩ := hw.cs
      · exact .inl ⟨hcs.trans hsame.1, hvalid.trans hsame.2⟩
      · exact .inr (.inl (hvalid.trans hinvalid))
      · simp [hquiet] at hone
    · refine .inr (.inr ⟨rfl, hu.fits hp4, ?_, rep, rfl, (hw.report rep hp4).imp id h.mem_out⟩)
      simp [pollDone, hquiet, responsesOf]
  · obtain hp4 | hread := h.report_of_p4 hv
    · exact (hw.report rep hp4).imp id h.mem_out
    · exact .inr hread

/-- Settles O48: no micro-step but P4 writes `CS`, and P4 stores what it answers. -/
theorem csIsWrittenOnlyByPoll : Obligations.CsIsWrittenOnlyByPoll := fun s _ hs hst =>
  (step_induction_inv (P := CsWritten s) hs hst (fun _ => ⟨.inr (.inl rfl), nofun, fun h => absurd rfl h⟩)
    (fun _ _ hu => hu.csWritten) fun _ _ h => h.csWritten).cs

/-! The baseline. -/

/-- An answer leaves `BL` as it is and leads to a phase without baseline or to the phase it found, or it is the report the
baseline is captured from. -/
theorem Answered.bl_cases {m : Micro} {a : Answer} {s t : State} (h : Answered m a s t) :
    (t.bl = s.bl ∧ (t.phase = s.phase ∨ (t.phase ≠ .calibrated ∧ t.phase ≠ .ready))) ∨
    ∃ rep, t.bl = baselineOf rep ∧ a = .ok 8 rep := by
  cases h with
  | captured h hn => exact .inr ⟨_, rfl, congrArg (Answer.ok · _) (Fin.ext hn)⟩
  | wrote h => exact .inl ⟨rfl, .inl rfl⟩
  | polled h hn => exact .inl ⟨rfl, .inl rfl⟩
  | pollError h hr => exact .inl ⟨rfl, .inl rfl⟩
  | pollShort h hn => exact .inl ⟨rfl, .inl rfl⟩
  | format h => exact .inl ⟨rfl, .inr ⟨nofun, nofun⟩⟩
  | initError h hr => exact .inl ⟨rfl, .inr ⟨nofun, nofun⟩⟩
  | initShort h hn => exact .inl ⟨rfl, .inr ⟨nofun, nofun⟩⟩

/-- What a turn that began in `s` has made of `BL` when it stands in `u`. -/
def BlWritten (s u : State) : Prop :=
  u.bl = s.bl ∨ (u.phase ≠ .calibrated ∧ u.phase ≠ .ready) ∨
    ∃ rep, u.bl = baselineOf rep ∧ (.accepted (.calibrate rep) ∈ u.out ∨ .answer (.ok 8 rep) ∈ u.out)

/-- A further step that leaves `BL` as it is and gives it no value it had not. -/
theorem BlWritten.of_bl_eq {s u v : State} (hw : BlWritten s u) (hbl : v.bl = u.bl)
    (hout : ∀ e ∈ u.out, e ∈ v.out)
    (hp : u.phase ≠ .calibrated ∧ u.phase ≠ .ready → v.phase ≠ .calibrated ∧ v.phase ≠ .ready) : BlWritten s v := by
  obtain h | h | ⟨rep, h, hrep⟩ := hw
  · exact .inl (hbl.trans h)
  · exact .inr (.inl (hp h))
  · exact .inr (.inr ⟨rep, hbl.trans h, hrep.imp (hout _) (hout _)⟩)

theorem Accepts.blWritten {s u : State} {i : Instr} (h : Accepts s i u) : BlWritten s u := by
  cases h with
  | init => exact .inr (.inl ⟨nofun, nofun⟩)
  | poll h => exact .inl rfl
  | decode h => exact .inl rfl
  | calibrate h => exact .inr (.inr ⟨_, rfl, .inl (by simp)⟩)
  | refused hi h => exact .inl rfl

theorem TurnBegins.blWritten {s u : State} {n : Nat} (h : TurnBegins s u n) : BlWritten s u := by
  cases h with
  | goesOn hm => exact .inl rfl
  | waits hm hc => exact .inl rfl
  | accepts hm hc h => exact h.blWritten

/-- The only micro-step into `Ready`, I8, finds the baseline captured (10_state.md R29, R30(a)). -/
theorem MicroEffect.blWritten {s u v : State} (h : MicroEffect u v) (hu : StateInv u) (hw : BlWritten s u) :
    BlWritten s v := by
  have hout := fun e => h.mem_out (e := e)
  cases h with
  | idle h => exact hw
  | waits hr hi hc => exact hw
  | issues hr hi => exact hw.of_bl_eq rfl hout id
  | answered hr hi hc h =>
    obtain ⟨hbl, hp | hp⟩ | ⟨rep, hbl, rfl⟩ := h.bl_cases
    · exact hw.of_bl_eq hbl hout fun hu => hp ▸ hu
    · exact .inr (.inl hp)
    · exact .inr (.inr ⟨rep, hbl, .inr (h.mem_out (by simp))⟩)
  | settles h => exact hw.of_bl_eq rfl hout id
  | finishesInit h => exact hw.of_bl_eq rfl hout fun hp => absurd (hu.fits h) hp.1
  | finishesPoll h => exact hw.of_bl_eq rfl hout id

/-- Settles O49: what a turn begins with and every micro-step write `BL` in no other way. -/
theorem baselineIsWrittenOnlyByCalibration : Obligations.BaselineIsWrittenOnlyByCalibration := fun s _ hs hst =>
  step_induction_inv (P := BlWritten s) hs hst (fun _ => .inr (.inl ⟨nofun, nofun⟩)) (fun _ _ hu => hu.blWritten)
    fun _ _ h => h.blWritten

end Sys2Proof.Machine
end

section
/-! PROOF. No step reads a content the spec leaves unspecified (93_implementation_defined.md U1): every operation of the
block, from two states alike where the spec gives values, leads to two such states. -/

namespace Sys2Proof.Machine

open Sys2Proof.Claims

/-- An operation that leads from states alike where the spec gives values to states alike so. -/
def KeepsAlike (f : State → State) : Prop := ∀ ⦃s s'⦄, alikeWhereSpecified s s' → alikeWhereSpecified (f s) (f s')

theorem KeepsAlike.comp {f g : State → State} (hf : KeepsAlike f) (hg : KeepsAlike g) : KeepsAlike fun s => f (g s) :=
  fun _ _ h => hf (hg h)

/-! The shared operations. -/

theorem emit_keepsAlike (e : Event) : KeepsAlike (emit e) := by
  rintro s _ ⟨bl, cs, rfl, hcs, hbl⟩; exact ⟨bl, cs, rfl, hcs, hbl⟩

theorem goto_keepsAlike (m : Micro) : KeepsAlike (goto m) := by
  rintro s _ ⟨bl, cs, rfl, hcs, hbl⟩; exact ⟨bl, cs, rfl, hcs, hbl⟩

theorem accept_keepsAlike (i : Instr) : KeepsAlike (accept i) := by
  rintro s _ ⟨bl, cs, rfl, hcs, hbl⟩; exact ⟨bl, cs, rfl, hcs, hbl⟩

theorem takeCommand_keepsAlike (rest : List CommandWord) : KeepsAlike (takeCommand rest) := by
  rintro s _ ⟨bl, cs, rfl, hcs, hbl⟩; exact ⟨bl, cs, rfl, hcs, hbl⟩

theorem idleTurn_keepsAlike : KeepsAlike idleTurn := by
  rintro s _ ⟨bl, cs, rfl, hcs, hbl⟩; exact ⟨bl, cs, rfl, hcs, hbl⟩

theorem issue_keepsAlike (r : Request) : KeepsAlike (issue r) := by
  rintro s _ ⟨bl, cs, rfl, hcs, hbl⟩; exact ⟨bl, cs, rfl, hcs, hbl⟩

theorem takeAnswer_keepsAlike (a : Answer) (rest : List Answer) : KeepsAlike (takeAnswer a rest) := by
  rintro s _ ⟨bl, cs, rfl, hcs, hbl⟩; exact ⟨bl, cs, rfl, hcs, hbl⟩

theorem respond_keepsAlike (e : Status) (v : Option ControllerState) : KeepsAlike (respond e v) :=
  (emit_keepsAlike _).comp (goto_keepsAlike _)

theorem settleFor_keepsAlike (n : Nat) (m : Micro) : KeepsAlike (settleFor n m) :=
  (goto_keepsAlike m).comp (emit_keepsAlike _)

/-- A free value depends on neither content. -/
theorem discardCs_keepsAlike : KeepsAlike discardCs := by
  rintro s _ ⟨bl, cs, rfl, hcs, hbl⟩; exact ⟨bl, _, rfl, fun _ => rfl, hbl⟩

theorem discardBl_keepsAlike : KeepsAlike discardBl := by
  rintro s _ ⟨bl, cs, rfl, hcs, hbl⟩; exact ⟨_, cs, rfl, hcs, fun _ => rfl⟩

theorem calibrateFrom_keepsAlike (rep : Report) : KeepsAlike (calibrateFrom rep) := by
  rintro s _ ⟨bl, cs, rfl, hcs, hbl⟩; exact ⟨_, cs, rfl, hcs, fun _ => rfl⟩

/-- PHASE may be written where that does not give `BL` a value it had not. -/
theorem setPhase_alike {p : Phase} {s s' : State} (h : alikeWhereSpecified s s')
    (hp : p = .calibrated ∨ p = .ready → s'.bl = s.bl) : alikeWhereSpecified (setPhase p s) (setPhase p s') := by
  obtain ⟨bl, cs, rfl, hcs, -⟩ := h
  exact ⟨bl, cs, rfl, hcs, hp⟩

theorem setPhase_keepsAlike {p : Phase} (hp : p ≠ .calibrated ∧ p ≠ .ready) : KeepsAlike (setPhase p) :=
  fun _ _ h => setPhase_alike h fun h' => absurd h' (not_or.mpr hp)

theorem resetBlock_keepsAlike : KeepsAlike resetBlock :=
  (setPhase_keepsAlike (by decide)).comp <| discardBl_keepsAlike.comp <| discardCs_keepsAlike.comp <| by
    rintro s _ ⟨bl, cs, rfl, hcs, hbl⟩; exact ⟨bl, cs, rfl, hcs, hbl⟩

/-! The micro-steps. -/

theorem failInit_keepsAlike (e : Status) : KeepsAlike (failInit e) :=
  (respond_keepsAlike _ _).comp (setPhase_keepsAlike (by decide))

theorem failPoll_keepsAlike (e : Status) : KeepsAlike (failPoll e) := respond_keepsAlike _ _

theorem formatSelected_keepsAlike : KeepsAlike formatSelected :=
  (goto_keepsAlike _).comp (setPhase_keepsAlike (by decide))

/-- `Calibrated` is entered with the captured baseline in `BL` (10_state.md R30(a)). -/
theorem baselineCaptured_keepsAlike (rep : Report) : KeepsAlike (baselineCaptured rep) := fun _ _ h =>
  goto_keepsAlike _ (setPhase_alike (calibrateFrom_keepsAlike rep h) fun _ => rfl)

theorem bl_eq_of_alike {s s' : State} (h : alikeWhereSpecified s s') (hp : s.phase = .calibrated ∨ s.phase = .ready) :
    s'.bl = s.bl := by
  obtain ⟨bl, cs, rfl, -, hbl⟩ := h
  exact hbl hp

theorem initDone_alike {s s' : State} (h : alikeWhereSpecified s s') (hp : s.phase = .calibrated) :
    alikeWhereSpecified (initDone s) (initDone s') :=
  respond_keepsAlike _ _ (setPhase_alike h fun _ => bl_eq_of_alike h (.inl hp))

/-- P4 reads `BL` where it has a value. -/
theorem pollDone_alike {rep : Report} {s s' : State} (h : alikeWhereSpecified s s') (hp : s.phase = .ready) :
    alikeWhereSpecified (pollDone rep s) (pollDone rep s') := by
  have hbl := bl_eq_of_alike h (.inr hp)
  obtain ⟨bl, cs, rfl, -, -⟩ := h
  cases hbl
  exact ⟨s.bl, _, rfl, fun _ => rfl, fun _ => rfl⟩

theorem transact_keepsAlike (r : Request) {k : Answer → State → State} (hk : ∀ a, KeepsAlike (k a)) :
    KeepsAlike (transact r k) := by
  intro s s' h
  have hi : s'.inflight = s.inflight := by obtain ⟨bl, cs, rfl, -, -⟩ := h; rfl
  have ha : answerFor s' = answerFor s := by obtain ⟨bl, cs, rfl, -, -⟩ := h; rfl
  unfold transact
  rw [hi, ha]
  split
  · exact issue_keepsAlike r h
  · split
    · exact h
    · exact hk _ (takeAnswer_keepsAlike _ _ h)

theorem afterWrite_keepsAlike {failed done : State → State} (hf : KeepsAlike failed) (hd : KeepsAlike done)
    (a : Answer) : KeepsAlike (afterWrite failed done a) := by
  cases a with
  | err => exact hf
  | ok n d => exact hd

theorem afterRead_keepsAlike {failed : Status → State → State} {done : Report → State → State}
    (hf : ∀ e, KeepsAlike (failed e)) (hd : ∀ rep, KeepsAlike (done rep)) (a : Answer) :
    KeepsAlike (afterRead failed done a) := by
  intro s s' h
  cases a with
  | err => exact hf _ h
  | ok n d =>
    simp only [afterRead]
    split
    · exact hf _ h
    · exact hd _ h

theorem readReport_keepsAlike (at_ : ReadStep → Micro) {failed : Status → State → State} {done : Report → State → State}
    (hf : ∀ e, KeepsAlike (failed e)) (hd : ∀ rep, KeepsAlike (done rep)) (r : ReadStep) :
    KeepsAlike (readReport at_ failed done r) := by
  cases r with
  | select => exact transact_keepsAlike _ (afterWrite_keepsAlike (hf _) (goto_keepsAlike _))
  | settle => exact settleFor_keepsAlike _ _
  | read => exact transact_keepsAlike _ (afterRead_keepsAlike hf hd)

/-- Where the invariant holds, a micro-step reads `BL` and enters `Ready` only where `BL` has a value. -/
theorem microStep_alike {s s' : State} (hs : StateInv s) (h : alikeWhereSpecified s s') :
    alikeWhereSpecified (microStep s) (microStep s') := by
  have hmicro : s'.micro = s.micro := by obtain ⟨bl, cs, rfl, -, -⟩ := h; rfl
  have write (r : Request) {done : State → State} (hd : KeepsAlike done) :=
    transact_keepsAlike r (afterWrite_keepsAlike (failInit_keepsAlike .transportError) hd) h
  unfold microStep
  rw [hmicro]
  cases hm : s.micro with
  | idle => exact h
  | i1 => exact write _ (goto_keepsAlike _)
  | i2 => exact settleFor_keepsAlike _ _ h
  | i3 => exact write _ (goto_keepsAlike _)
  | i4 => exact settleFor_keepsAlike _ _ h
  | i5 => exact write _ formatSelected_keepsAlike
  | i6 => exact settleFor_keepsAlike _ _ h
  | i7 r => exact readReport_keepsAlike _ failInit_keepsAlike baselineCaptured_keepsAlike r h
  | i8 => exact initDone_alike h (hs.fits hm)
  | poll r => exact readReport_keepsAlike _ failPoll_keepsAlike (fun _ => goto_keepsAlike _) r h
  | p4 rep => exact pollDone_alike h (hs.fits hm)

theorem runMicro_alike (n : Nat) {s s' : State} (hs : StateInv s) (h : alikeWhereSpecified s s') :
    alikeWhereSpecified (runMicro n s) (runMicro n s') := by
  induction n generalizing s s' with
  | zero => exact h
  | succ n ih => exact ih ((microStep_effect s).keeps_inv hs) (microStep_alike hs h)

/-! What a turn begins with. -/

/-- Acceptance reads no content but `BL` in `Ready`, for the answer to `DECODE` (42_decode.md R125). -/
theorem Accepts.alike {s s' u : State} {i : Instr} (hu : Accepts s i u) (h : alikeWhereSpecified s s') :
    ∃ u', Accepts s' i u' ∧ alikeWhereSpecified u u' := by
  have hphase : s'.phase = s.phase := by obtain ⟨bl, cs, rfl, -, -⟩ := h; rfl
  have ha := accept_keepsAlike i h
  cases hu with
  | init =>
    exact ⟨_, .init, goto_keepsAlike _ <| setPhase_keepsAlike (by decide) <| discardBl_keepsAlike <|
      discardCs_keepsAlike ha⟩
  | poll hp => exact ⟨_, .poll (hphase.trans hp), goto_keepsAlike _ ha⟩
  | decode hp =>
    refine ⟨_, .decode (hphase.trans hp), ?_⟩
    rw [bl_eq_of_alike h (.inr hp)]
    exact respond_keepsAlike _ _ ha
  | calibrate hp =>
    exact ⟨_, .calibrate (hphase.trans hp), respond_keepsAlike _ _ <| discardCs_keepsAlike <|
      calibrateFrom_keepsAlike _ ha⟩
  | refused hi hp => exact ⟨_, .refused hi (hphase ▸ hp), respond_keepsAlike _ _ ha⟩

theorem TurnBegins.alike {s s' u : State} {n : Nat} (hu : TurnBegins s u n) (h : alikeWhereSpecified s s') :
    ∃ u', TurnBegins s' u' n ∧ alikeWhereSpecified u u' := by
  have hidle := idleTurn_keepsAlike h
  have htake := fun rest => takeCommand_keepsAlike rest h
  obtain ⟨bl, cs, rfl, -, -⟩ := h
  cases hu with
  | goesOn hm => exact ⟨_, .goesOn hm, hidle⟩
  | waits hm hc => exact ⟨_, .waits hm hc, hidle⟩
  | accepts hm hc hu =>
    obtain ⟨u', hu', hau⟩ := hu.alike (htake _)
    exact ⟨u', .accepts hm hc hu', hau⟩

/-- Settles O50: a reset leads to states alike, and so do what a turn begins with and the micro-steps that follow. -/
theorem unspecifiedContentsAreNeverRead : Obligations.UnspecifiedContentsAreNeverRead := by
  intro s s' t hs h hst
  have hrst : s'.rst = s.rst := by obtain ⟨bl, cs, rfl, -, -⟩ := h; rfl
  suffices ∃ t', step s' = .next t' ∧ alikeWhereSpecified t t' by
    obtain ⟨t', hst', bl, cs, rfl, halike⟩ := this
    exact ⟨_, hst', ⟨bl, cs, rfl, halike⟩, rfl⟩
  by_cases hr : s.rst = true
  · rw [step_reset hr] at hst
    cases hst
    exact ⟨_, step_reset (hrst.trans hr), resetBlock_keepsAlike h⟩
  · rw [Bool.not_eq_true] at hr
    obtain ⟨u, n, hu⟩ := exists_turnBegins s
    rw [hu.step_eq hr] at hst
    cases hst
    obtain ⟨u', hu', hau⟩ := hu.alike h
    exact ⟨_, hu'.step_eq (hrst.trans hr), runMicro_alike n (hu.keeps_inv hs) hau⟩

end Sys2Proof.Machine
end

section
/-! PROOF. The outputs, the state after power-up, the decoded command and a command whose first request is not answered
(10_state.md R28, R31, R33, R38; 60_exceptions.md R177). -/

namespace Sys2Proof.Machine

open Sys2Proof.Claims

theorem Phase.code_lt (p : Phase) : p.code.toNat < 5 := by cases p <;> decide

/-- Settles O5: the codes are as listed, and no phase has a code of 5 or more. -/
theorem outputCodes : Obligations.OutputCodes :=
  ⟨⟨rfl, rfl, rfl, rfl, rfl⟩, ⟨rfl, rfl, rfl, rfl⟩, fun s => s.phase.code_lt⟩

/-- Settles O39: the fields of `State.reset`, read off. -/
theorem powerUpState : Obligations.PowerUpState := ⟨rfl, rfl, rfl, rfl, rfl, rfl, rfl⟩

/-- Settles O40: a turn that begins with a presented command executes what its word decodes to. -/
theorem stepRunsTheDecodedCommand : Obligations.StepRunsTheDecodedCommand := by
  rintro s w rest _ hr hm hc rfl
  exact step_command hr hm hc

theorem microStep_issues {s : State} {r : Request} (hr : s.micro.request = some r) (hi : s.inflight = none) :
    microStep s = issue r s := by
  have h := microStep_effect s
  generalize microStep s = t at h
  cases h with
  | issues hr' => rw [Option.some.inj (hr.symm.trans hr')]
  | idle h => simp [h, Micro.request] at hr
  | waits hr' hi' hc => simp [hi] at hi'
  | answered hr' hi' hc h => simp [hi] at hi'
  | settles h => simp [h.request_none] at hr
  | finishesInit h => simp [h, Micro.request] at hr
  | finishesPoll h => simp [h, Micro.request] at hr

theorem microStep_waits {s : State} {r q : Request} (hr : s.micro.request = some r) (hi : s.inflight = some q)
    (hc : coming s = []) : microStep s = s := by
  have h := microStep_effect s
  generalize microStep s = t at h
  cases h with
  | idle h => rfl
  | waits hr' hi' hc => rfl
  | issues hr' hi' => simp [hi] at hi'
  | answered hr' hi' hc' h => simp [hc] at hc'
  | settles h => simp [h.request_none] at hr
  | finishesInit h => simp [h, Micro.request] at hr
  | finishesPoll h => simp [h, Micro.request] at hr

/-- A turn that issues a request to which no answer comes ends with the request outstanding. -/
theorem runMicro_awaits {s : State} {r : Request} {n : Nat} (hr : s.micro.request = some r) (hi : s.inflight = none)
    (hc : coming s = []) (hn : 1 ≤ n) : runMicro n s = issue r s := by
  obtain ⟨n, rfl⟩ := Nat.exists_eq_add_of_le' hn
  have hwait : microStep (issue r s) = issue r s := microStep_waits hr rfl hc
  rw [runMicro_succ, microStep_issues hr hi, runMicro_fixed hwait]

/-- Settles O35: what is accepted stands before its first request, which the turn issues and then waits for. -/
theorem commandsWaitForTheirFirstAnswer : Obligations.CommandsWaitForTheirFirstAnswer := by
  intro s hc hb
  refine ⟨⟨issue unlockAWrite (beginInitialize s), ?_, rfl, rfl, rfl, rfl, rfl⟩, fun hp =>
    ⟨issue selectorWrite (goto (.poll .select) (accept .poll s)), ?_, ⟨rfl, rfl, rfl, rfl, rfl⟩, rfl, rfl, rfl, rfl⟩⟩
  · exact Accepts.init.exec_eq.trans (congrArg _ (runMicro_awaits rfl rfl hc hb))
  · exact (Accepts.poll hp).exec_eq.trans (congrArg _ (runMicro_awaits rfl rfl hc hb))

end Sys2Proof.Machine
end

section
/-! PROOF. The requests of a turn are those of the address map (20_memory.md R56), and each settle lies between an answered
write and the next request (R62(b), R64). -/

namespace Sys2Proof.Machine

/-! The address map. -/

/-- The requests of the address map (20_memory.md R56), written out. -/
def InAddressMap (r : Request) : Prop :=
  r = .write 0x52 0xF0 (some 0x55) ∨ r = .write 0x52 0xFB (some 0x00) ∨ r = .write 0x52 0xFE (some 0x03) ∨
  r = .write 0x52 0x00 none ∨ r = .read 0x52 0x00 8

theorem Micro.request_mem_initRequests {m : Micro} {r : Request} (h : m.request = some r) : r ∈ initRequests := by
  unfold Micro.request at h
  split at h <;> simp_all [initRequests]

theorem inAddressMap_of_mem_initRequests {r : Request} (h : r ∈ initRequests) : InAddressMap r := by
  simp only [initRequests, List.mem_cons, List.not_mem_nil, or_false] at h
  exact h

theorem Answered.requestsOf_out {m : Micro} {a : Answer} {s t : State} (h : Answered m a s t) :
    requestsOf t.out = requestsOf s.out := by
  cases h <;> simp [formatSelected, baselineCaptured, failInit, failPoll, requestsOf]

/-- A step of the command in progress shows no request but the one its micro-step issues. -/
theorem MicroEffect.requestsOf_out {s t : State} (h : MicroEffect s t) :
    requestsOf t.out = requestsOf s.out ∨
    ∃ r, s.micro.request = some r ∧ requestsOf t.out = requestsOf s.out ++ [r] := by
  cases h with
  | idle h => exact .inl rfl
  | waits hr hi hc => exact .inl rfl
  | issues hr hi => exact .inr ⟨_, hr, by simp [requestsOf]⟩
  | answered hr hi hc h => exact .inl (by simp [h.requestsOf_out, requestsOf])
  | settles h => exact .inl (by simp [requestsOf])
  | finishesInit h => exact .inl (by simp [initDone, requestsOf])
  | finishesPoll h => exact .inl (by simp [pollDone, requestsOf])

theorem Accepts.requestsOf_out {s u : State} {i : Instr} (h : Accepts s i u) : requestsOf u.out = [] := by
  cases h <;> rfl

theorem TurnBegins.requestsOf_out {s u : State} {n : Nat} (h : TurnBegins s u n) : requestsOf u.out = [] := by
  cases h with
  | goesOn hm => rfl
  | waits hm hc => rfl
  | accepts hm hc h => exact h.requestsOf_out

/-- Settles O31: a turn begins with no request, and every request a micro-step adds is of the map. -/
theorem requestsAreOfTheAddressMap : Obligations.RequestsAreOfTheAddressMap := fun _ _ hst =>
  step_induction (P := fun u => ∀ r ∈ requestsOf u.out, InAddressMap r) hst (fun _ => nofun)
    (fun _ _ hu => by simp [hu.requestsOf_out]) fun u v h hu => by
      obtain hsame | ⟨r, hr, hadd⟩ := h.requestsOf_out
      · rwa [hsame]
      · rw [hadd, List.forall_mem_append, List.forall_mem_singleton]
        exact ⟨hu, inAddressMap_of_mem_initRequests (Micro.request_mem_initRequests hr)⟩

/-! The settles. -/

/-- The writes with a settle after them, and that settle (40_initialize.md R92, 20_memory.md R68). -/
inductive WrittenTo : Micro → Micro → Prop where
  | wrote {m m' : Micro} (h : WritesTo m m') : WrittenTo m m'
  | format : WrittenTo .i5 .i6

theorem WrittenTo.source_unique {m k m' : Micro} (h : WrittenTo m m') (h' : WrittenTo k m') : k = m := by
  cases h with
  | format =>
    cases h' with
    | wrote h' => nomatch h'
    | format => rfl
  | wrote h =>
    cases h' with
    | wrote h' => cases h <;> cases h' <;> rfl
    | format => nomatch h

theorem SettlesTo.source_unique {m k m' : Micro} {n j : Nat} (h : SettlesTo m n m') (h' : SettlesTo k j m') :
    k = m ∧ j = n := by
  cases h <;> cases h' <;> exact ⟨rfl, rfl⟩

theorem WrittenTo.not_settlesTo {m k m' : Micro} {n : Nat} (h : WrittenTo m m') : ¬ SettlesTo k n m' := by
  cases h with
  | wrote h => cases h <;> nofun
  | format => nofun

/-- What leads to a settle or past one: a write answered `Ok` to the settle after it, a settle to the request after it
(20_memory.md R62(b), R64). -/
inductive Leads : Micro → Event → Micro → Prop where
  | written {m m' : Micro} {n : Fin 9} {d : Report} (h : WrittenTo m m') : Leads m (.answer (.ok n d)) m'
  | settled {m m' : Micro} {n : Nat} (h : SettlesTo m n m') : Leads m (.settle n) m'

/-- The settles and the micro-steps that come after one. -/
def Micro.atSettle : Micro → Bool
  | .idle | .i1 | .i8 | .poll .select | .p4 _ => false
  | .i2 | .i3 | .i4 | .i5 | .i6 | .i7 _ | .poll .settle | .poll .read => true

theorem Leads.atSettle {m m' : Micro} {e : Event} (h : Leads m e m') : m'.atSettle = true := by
  cases h with
  | written h =>
    cases h with
    | wrote h => cases h <;> rfl
    | format => rfl
  | settled h => cases h <;> rfl

/-- Where `t` has come to a settle or past one, an event that leads there from the micro-step of `s` was shown. -/
def EnteredByEvent (s t : State) : Prop :=
  t.micro ≠ s.micro → t.micro.atSettle = true → ∃ e ∈ t.out, Leads s.micro e t.micro

theorem enteredByEvent_of_micro_eq {s t : State} (h : t.micro = s.micro) : EnteredByEvent s t :=
  fun hne => absurd h hne

theorem enteredByEvent_of_not_atSettle {s t : State} (h : t.micro.atSettle = false) : EnteredByEvent s t :=
  fun _ ht => by simp [h] at ht

theorem enteredByEvent_of_leads {s t : State} {e : Event} (he : e ∈ t.out) (h : Leads s.micro e t.micro) :
    EnteredByEvent s t :=
  fun _ _ => ⟨e, he, h⟩

theorem Answered.enteredByEvent {a : Answer} {s u t : State} (h : Answered s.micro a u t) (ha : .answer a ∈ u.out) :
    EnteredByEvent s t := by
  have ha := h.mem_out ha
  cases h with
  | wrote h => exact enteredByEvent_of_leads ha (.written (.wrote h))
  | format h => exact enteredByEvent_of_leads ha (.written (h ▸ .format))
  | captured h hn => exact enteredByEvent_of_not_atSettle rfl
  | polled h hn => exact enteredByEvent_of_not_atSettle rfl
  | initError h hr => exact enteredByEvent_of_not_atSettle rfl
  | pollError h hr => exact enteredByEvent_of_not_atSettle rfl
  | initShort h hn => exact enteredByEvent_of_not_atSettle rfl
  | pollShort h hn => exact enteredByEvent_of_not_atSettle rfl

theorem MicroEffect.enteredByEvent {s t : State} (h : MicroEffect s t) : EnteredByEvent s t := by
  cases h with
  | idle h => exact enteredByEvent_of_micro_eq rfl
  | waits hr hi hc => exact enteredByEvent_of_micro_eq rfl
  | issues hr hi => exact enteredByEvent_of_micro_eq rfl
  | answered hr hi hc h => exact h.enteredByEvent (by simp)
  | settles h => exact enteredByEvent_of_leads (by simp) (.settled h)
  | finishesInit h => exact enteredByEvent_of_not_atSettle rfl
  | finishesPoll h => exact enteredByEvent_of_not_atSettle rfl

/-- A command is accepted to its first request or to its end, never to a settle or past one. -/
theorem Accepts.enteredByEvent {s u : State} {i : Instr} (h : Accepts s i u) (s' : State) : EnteredByEvent s' u := by
  cases h with
  | init => exact enteredByEvent_of_not_atSettle rfl
  | poll h => exact enteredByEvent_of_not_atSettle rfl
  | decode h => exact enteredByEvent_of_not_atSettle rfl
  | calibrate h => exact enteredByEvent_of_not_atSettle rfl
  | refused hi h => exact enteredByEvent_of_not_atSettle rfl

/-- A turn of one step is a micro-step of the command in progress, or it waits or accepts. -/
theorem step_enteredByEvent {s t : State} (hr : s.rst = false) (hb : s.burst = 0) (hst : step s = .next t) :
    EnteredByEvent s t := by
  obtain ⟨u, n, hu⟩ := exists_turnBegins s
  rw [hu.step_eq hr] at hst
  cases hst
  cases hu with
  | goesOn hm => rw [hb]; exact (microStep_effect (idleTurn s)).enteredByEvent
  | waits hm hc => exact enteredByEvent_of_micro_eq rfl
  | accepts hm hc h => rw [hb]; exact h.enteredByEvent s

/-- A micro-step that follows a settle is entered from that settle alone, which records its bound. -/
theorem EnteredByEvent.of_settlesTo {s t : State} {m m' : Micro} {n : Nat} (h : EnteredByEvent s t)
    (hm : SettlesTo m n m') (ht : t.micro = m') (hne : s.micro ≠ m') : s.micro = m ∧ .settle n ∈ t.out := by
  subst ht
  obtain ⟨e, he, hl⟩ := h hne.symm (Leads.settled hm).atSettle
  cases hl with
  | written hw => exact absurd hm hw.not_settlesTo
  | settled hs =>
    obtain ⟨hs, rfl⟩ := hm.source_unique hs
    exact ⟨hs, he⟩

/-- A settle is entered from the write before it alone, answered `Ok`. -/
theorem EnteredByEvent.of_writtenTo {s t : State} {m m' : Micro} (h : EnteredByEvent s t) (hm : WrittenTo m m')
    (ht : t.micro = m') (hne : s.micro ≠ m') : s.micro = m ∧ ∃ n d, .answer (.ok n d) ∈ t.out := by
  subst ht
  obtain ⟨e, he, hl⟩ := h hne.symm (Leads.written (n := 0) (d := 0) hm).atSettle
  cases hl with
  | written hw => exact ⟨hm.source_unique hw, _, _, he⟩
  | settled hs => exact absurd hs hm.not_settlesTo

/-- Settles O33: a turn of one step comes to a settle, or past one, by nothing but the event that leads there. -/
theorem settlesSeparateRequests : Obligations.SettlesSeparateRequests := by
  intro s t hr hb hst
  have h := step_enteredByEvent hr hb hst
  exact ⟨h.of_writtenTo (.wrote .i1), h.of_settlesTo .i2, h.of_writtenTo (.wrote .i3), h.of_settlesTo .i4,
    h.of_writtenTo .format, h.of_settlesTo .i6, h.of_writtenTo (.wrote .i7), h.of_settlesTo .i7,
    h.of_writtenTo (.wrote .poll), h.of_settlesTo .poll⟩

end Sys2Proof.Machine
end

section
/-! PROOF. The decoder and the encoder are inverse to each other (30_encoding.md R78 to R80): the rows of the command map
first, then what a command word keeps of its operand. -/

namespace Sys2Proof

open Sys2Proof.Claims

/-! The rows of the command map, by opcode (R79). -/

theorem decodeCommand_of_opField_zero {w : CommandWord} (h : opField w = 0) : decodeCommand w = .init := by
  simp [decodeCommand, h]

theorem decodeCommand_of_opField_one {w : CommandWord} (h : opField w = 1) : decodeCommand w = .poll := by
  simp [decodeCommand, h]

theorem decodeCommand_of_opField_two {w : CommandWord} (h : opField w = 2) : decodeCommand w = .decode (repField w) := by
  simp [decodeCommand, h]

theorem decodeCommand_of_opField_three {w : CommandWord} (h : opField w = 3) :
    decodeCommand w = .calibrate (calibrateOperand (repField w)) := by
  simp [decodeCommand, h]

/-- Every word lies in a row (R80). -/
theorem decodeCommand_cases (w : CommandWord) :
    (opField w = 0 ∧ decodeCommand w = .init) ∨ (opField w = 1 ∧ decodeCommand w = .poll) ∨
    (opField w = 2 ∧ decodeCommand w = .decode (repField w)) ∨
    (opField w = 3 ∧ decodeCommand w = .calibrate (calibrateOperand (repField w))) := by
  have hop : ∀ op : BitVec 2, op = 0 ∨ op = 1 ∨ op = 2 ∨ op = 3 := by decide
  obtain h | h | h | h := hop (opField w)
  · exact .inl ⟨h, decodeCommand_of_opField_zero h⟩
  · exact .inr (.inl ⟨h, decodeCommand_of_opField_one h⟩)
  · exact .inr (.inr (.inl ⟨h, decodeCommand_of_opField_two h⟩))
  · exact .inr (.inr (.inr ⟨h, decodeCommand_of_opField_three h⟩))

/-! Decoding an encoding. -/

theorem decodeCommand_encode {i : Instr} (h : i.wellFormed = true) : decodeCommand (encode i) = i := by
  cases i with
  | init => exact decodeCommand_of_opField_zero (opField_append 0 0)
  | poll => exact decodeCommand_of_opField_one (opField_append 1 0)
  | decode rep =>
    exact (decodeCommand_of_opField_two (opField_append 2 rep)).trans (congrArg _ (repField_append 2 rep))
  | calibrate rep =>
    have hrep : calibrateOperand rep = rep := calibrateOperand_of_lt (of_decide_eq_true h)
    have hrow := decodeCommand_of_opField_three (opField_append 3 (calibrateOperand rep))
    rw [repField_append, hrep, hrep] at hrow
    rwa [encode, opcode, operand, hrep]

/-- The decoder over numbers is the decoder of words on every word's number. -/
theorem decodeNumber_toNat (w : CommandWord) : decodeNumber w.toNat = .ok (decodeCommand w) := by
  rw [decodeNumber, if_pos w.isLt, BitVec.ofNat_toNat, BitVec.setWidth_eq]

/-- Settles O1: the encoder writes each command's row and operand, which the decoder reads back. -/
theorem decodeOfEncodeIsTheCommand : Obligations.DecodeOfEncodeIsTheCommand := fun _ h =>
  ⟨decodeCommand_encode h, (decodeNumber_toNat _).trans (congrArg _ (decodeCommand_encode h))⟩

/-! Encoding a decoded word. -/

/-- A command word is its two fields (R78). -/
theorem opField_append_repField (w : CommandWord) : opField w ++ repField w = w := by
  rw [opField, repField, BitVec.extractLsb'_append_extractLsb'_eq_extractLsb' (Nat.zero_add 64).symm,
    BitVec.extractLsb'_eq_self]

/-- A word is masked field by field. -/
theorem and_eq_append (w m : CommandWord) : w &&& m = (opField w &&& opField m) ++ (repField w &&& repField m) := by
  rw [← BitVec.and_append, opField_append_repField, opField_append_repField]

/-- The operand of `CALIBRATE` is `rep[47:0]` (R79), as a mask. -/
theorem calibrateOperand_eq_and (rep : Report) : calibrateOperand rep = rep &&& 0x0000FFFFFFFFFFFF := by
  apply BitVec.eq_of_toNat_eq
  have hmask : rep.toNat &&& 0x0000FFFFFFFFFFFF = rep.toNat % 2 ^ 48 := Nat.and_two_pow_sub_one_eq_mod _ 48
  simpa [calibrateOperand, hmask] using Nat.mod_eq_of_lt (by omega : rep.toNat % 2 ^ 48 < 2 ^ 64)

@[simp] theorem calibrateOperand_idem (rep : Report) : calibrateOperand (calibrateOperand rep) = calibrateOperand rep :=
  calibrateOperand_of_lt (calibrateOperand_lt rep)

/-- The decoder gives only well-formed instructions. -/
theorem decodeCommand_wellFormed (w : CommandWord) : (decodeCommand w).wellFormed = true := by
  obtain ⟨-, h⟩ | ⟨-, h⟩ | ⟨-, h⟩ | ⟨-, h⟩ := decodeCommand_cases w <;> rw [h]
  · rfl
  · rfl
  · rfl
  · exact decide_eq_true (calibrateOperand_lt _)

theorem opField_usedBits (op : BitVec 2) : opField (usedBits op) = 3 := by
  revert op
  decide

/-- The opcode a decoded word is encoded with is its own. -/
theorem opcode_decodeCommand (w : CommandWord) : opcode (decodeCommand w) = opField w := by
  obtain ⟨hop, h⟩ | ⟨hop, h⟩ | ⟨hop, h⟩ | ⟨hop, h⟩ := decodeCommand_cases w <;> rw [h, hop, opcode]

/-- The operand a decoded word is encoded with is its own, as far as its command uses it. -/
theorem operand_decodeCommand (w : CommandWord) :
    operand (decodeCommand w) = repField w &&& repField (usedBits (opField w)) := by
  obtain ⟨hop, h⟩ | ⟨hop, h⟩ | ⟨hop, h⟩ | ⟨hop, h⟩ := decodeCommand_cases w <;> rw [h, hop, operand]
  · rw [show repField (usedBits 0) = 0#64 by decide, BitVec.and_zero, BitVec.ofNat_eq_ofNat]
  · rw [show repField (usedBits 1) = 0#64 by decide, BitVec.and_zero, BitVec.ofNat_eq_ofNat]
  · rw [show repField (usedBits 2) = BitVec.allOnes 64 by decide, BitVec.and_allOnes]
  · rw [show repField (usedBits 3) = 0x0000FFFFFFFFFFFF by decide, calibrateOperand_idem, calibrateOperand_eq_and]

theorem encode_decodeCommand (w : CommandWord) : encode (decodeCommand w) = w &&& usedBits (opField w) := by
  have hop : opField w &&& 3 = opField w := BitVec.and_allOnes
  rw [encode, opcode_decodeCommand, operand_decodeCommand, and_eq_append, opField_usedBits, hop]

/-- Settles O2: the encoder writes the decoded word's own opcode, and of its operand what its command uses. -/
theorem encodeOfDecodeKeepsTheUsedBits : Obligations.EncodeOfDecodeKeepsTheUsedBits := fun w =>
  ⟨encode_decodeCommand w, decodeCommand_wellFormed w⟩

/-! The command map by match and mask. -/

/-- A word whose masked value is an opcode above zeros has that opcode. -/
theorem opField_of_mask {w : CommandWord} {op : BitVec 2} (h : w &&& 0x30000000000000000 = op ++ (0 : Report)) :
    opField w = op := by
  rw [← opField_append_repField w, Laws.MapRow.append_opcode] at h
  exact (BitVec.append_left_inj _).mp h

theorem calibrateOperand_repField (w : CommandWord) : calibrateOperand (repField w) = (w.extractLsb' 0 48).setWidth 64 := by
  rw [calibrateOperand, repField, BitVec.extractLsb'_extractLsb'_of_le (by decide)]

/-- Settles O3: the masked value of a word is its opcode, and the opcode names the row. -/
theorem commandMapByMatchAndMask : Obligations.CommandMapByMatchAndMask := by
  refine fun w => ⟨fun h => ?_, fun h => ?_, fun h => ?_, fun h => ?_⟩
  · exact decodeCommand_of_opField_zero (opField_of_mask h)
  · exact decodeCommand_of_opField_one (opField_of_mask h)
  · exact decodeCommand_of_opField_two (opField_of_mask h)
  · exact (decodeCommand_of_opField_three (opField_of_mask h)).trans (congrArg _ (calibrateOperand_repField w))

end Sys2Proof
end

section
/-! PROOF. Which bits of a report `decode` depends on (30_encoding.md R75; 42_decode.md R127, R128): all but bit 48. -/

namespace Sys2Proof.Machine

/-- The two reports have the same bit at each of these positions. -/
def AgreeAt (P : Nat → Prop) (rep rep' : Report) : Prop := ∀ n, P n → rep.getLsbD n = rep'.getLsbD n

theorem byteAt_eq_iff {rep rep' : Report} {i : Nat} :
    byteAt rep i = byteAt rep' i ↔ AgreeAt (fun n => n / 8 = i) rep rep' := by
  rw [BitVec.eq_of_getLsbD_eq_iff]
  constructor
  · intro h n hn
    have hk := h (n % 8) (by omega)
    have hn' : 8 * i + n % 8 = n := by omega
    rwa [byteAt_getLsbD, byteAt_getLsbD, hn', decide_eq_true (by omega), Bool.true_and, Bool.true_and] at hk
  · intro h k hk
    rw [byteAt_getLsbD, byteAt_getLsbD, h (8 * i + k) (by omega)]

/-- The samples are the bits of bytes 0 to 5 (R127). -/
theorem unpackSamples_eq_iff {rep rep' : Report} :
    unpackSamples rep = unpackSamples rep' ↔ AgreeAt (· < 48) rep rep' := by
  have hbytes : unpackSamples rep = unpackSamples rep' ↔ ∀ i < 6, byteAt rep i = byteAt rep' i := by
    simp only [unpackSamples, Samples.mk.injEq, Nat.forall_lt_succ_right, Nat.not_lt_zero, IsEmpty.forall_iff,
      implies_true, true_and, and_assoc]
  rw [hbytes]
  constructor
  · intro h n hn
    exact byteAt_eq_iff.mp (h (n / 8) (by omega)) n rfl
  · intro h i hi
    exact byteAt_eq_iff.mpr fun n hn => h n (by omega)

/-- A vector gathered through a table of at most fifteen rows is the wire bits of the table's rows. -/
theorem gather_eq_iff {rep rep' : Report} {rows : List (Nat × Nat)} (hlen : rows.length ≤ 15) :
    gather rep rows = gather rep' rows ↔ ∀ row ∈ rows, wireBit rep row.1 row.2 = wireBit rep' row.1 row.2 := by
  constructor
  · intro h row hrow
    obtain ⟨n, hn, rfl⟩ := List.mem_iff_getElem.mp hrow
    have hlane : (gather rep rows).getLsbD n = (gather rep' rows).getLsbD n := by rw [h]
    rw [gather_getLsbD _ _ _ (by omega), gather_getLsbD _ _ _ (by omega), List.getElem?_eq_getElem hn] at hlane
    exact hlane
  · intro h
    apply BitVec.eq_of_getLsbD_eq
    intro n hn
    rw [gather_getLsbD _ _ _ hn, gather_getLsbD _ _ _ hn]
    cases hrow : rows[n]? with
    | none => rfl
    | some row => exact h row (List.mem_of_getElem? hrow)

/-- The rows of the unpacker's table (30_encoding.md R74) name each report bit from 49 to 63, and no other. -/
theorem mem_buttonTable_iff {n : Nat} (hn : n < 64) : (n / 8, n % 8) ∈ buttonTable ↔ 48 < n := by
  revert n
  decide

/-- The wire vector is the bits of bytes 6 and 7 without the unassigned one (R74, R75, R128). -/
theorem unpackButtons_eq_iff {rep rep' : Report} :
    unpackButtons rep = unpackButtons rep' ↔ AgreeAt (fun n => 48 < n ∧ n < 64) rep rep' := by
  rw [unpackButtons, unpackButtons, gather_eq_iff (by decide)]
  constructor
  · rintro h n ⟨hlo, hhi⟩
    have hbit := h _ ((mem_buttonTable_iff hhi).mpr hlo)
    rwa [wireBit_eq _ _ _ (by omega), wireBit_eq _ _ _ (by omega), Nat.div_add_mod] at hbit
  · rintro h ⟨j, k⟩ hrow
    have hrange : ∀ row ∈ buttonTable, row.2 < 8 ∧ 48 < 8 * row.1 + row.2 ∧ 8 * row.1 + row.2 < 64 := by decide
    obtain ⟨hk, hlo, hhi⟩ := hrange _ hrow
    rw [wireBit_eq _ _ _ hk, wireBit_eq _ _ _ hk]
    exact h _ ⟨hlo, hhi⟩

/-- `decode` reads a report through its samples and its wire vector only, and shows both. -/
theorem decodeReport_eq_iff_unpack {rep rep' : Report} {base : Baseline} :
    decodeReport rep base = decodeReport rep' base ↔
      unpackSamples rep = unpackSamples rep' ∧ unpackButtons rep = unpackButtons rep' := by
  constructor
  · intro h
    simp only [decodeReport, ControllerState.mk.injEq, invert, BitVec.not_inj] at h
    obtain ⟨hlx, hly, hrx, hry, hlt, hrt, -, -, -, -, -, -, hbtn⟩ := h
    exact ⟨(Samples.mk.injEq ..).mpr ⟨hlx, hrx, hly, hry, hlt, hrt⟩, hbtn⟩
  · rintro ⟨hs, hb⟩
    simp only [decodeReport, hs, hb]

/-- `decode` depends on exactly the report bits other than bit 48. -/
theorem decodeReport_eq_iff {rep rep' : Report} {base : Baseline} :
    decodeReport rep base = decodeReport rep' base ↔ AgreeAt (fun n => n < 64 ∧ n ≠ 48) rep rep' := by
  rw [decodeReport_eq_iff_unpack, unpackSamples_eq_iff, unpackButtons_eq_iff]
  constructor
  · rintro ⟨hlow, hhigh⟩ n ⟨hn, hne⟩
    obtain h | h := Nat.lt_or_gt_of_ne hne
    · exact hlow n h
    · exact hhigh n ⟨h, hn⟩
  · intro h
    exact ⟨fun n hn => h n (by omega), fun n hn => h n (by omega)⟩

/-- Flipping bit `k` of a report changes that bit and no other. -/
theorem flip_getLsbD (rep : Report) {k : Nat} (hk : k < 64) (n : Nat) :
    (rep ^^^ (1 : Report) <<< k).getLsbD n = (rep.getLsbD n ^^ decide (k = n)) := by
  have htwo : (1 : Report) <<< k = BitVec.twoPow 64 k := (BitVec.twoPow_eq 64 k).symm
  rw [htwo, BitVec.getLsbD_xor, BitVec.getLsbD_twoPow, decide_eq_true hk, Bool.true_and]

/-- Settles O12: a flipped bit is seen exactly when it is one of those `decode` depends on. -/
theorem onlyTheUnassignedBitIsIgnored : Obligations.OnlyTheUnassignedBitIsIgnored := by
  intro rep base k hk
  rw [decodeReport_eq_iff]
  constructor
  · intro h
    by_contra hne
    have hbit := h k ⟨hk, hne⟩
    rw [flip_getLsbD rep hk, decide_eq_true rfl, Bool.xor_true] at hbit
    exact Bool.not_ne_self _ hbit
  · rintro rfl n ⟨-, hne⟩
    rw [flip_getLsbD rep hk, decide_eq_false hne.symm, Bool.xor_false]

end Sys2Proof.Machine
end

section
/-! PROOF. INITIALIZE (40_initialize.md R90 to R95): what it leaves alone for every answer, then its five requests by
number, what an answer to each leads to, and from these the rows of R95. -/

namespace Sys2Proof.Machine

open Sys2Proof.Claims

/-! What INITIALIZE leaves alone. -/

theorem WritesTo.command_eq {m m' : Micro} (h : WritesTo m m') : m'.command = m.command := by cases h <;> rfl

theorem SettlesTo.command_eq {m m' : Micro} {n : Nat} (h : SettlesTo m n m') : m'.command = m.command := by
  cases h <;> rfl

theorem Answered.command_cases {m : Micro} {a : Answer} {s t : State} (h : Answered m a s t) :
    t.micro.command = m.command ∨ t.micro = .idle := by
  cases h with
  | wrote h => exact .inl h.command_eq
  | format h => exact .inl (h ▸ rfl)
  | captured h hn => exact .inl (h ▸ rfl)
  | polled h hn => exact .inl (h ▸ rfl)
  | initError h hr => exact .inr rfl
  | pollError h hr => exact .inr rfl
  | initShort h hn => exact .inr rfl
  | pollShort h hn => exact .inr rfl

/-- A micro-step goes on with its command or ends it. -/
theorem MicroEffect.command_cases {s t : State} (h : MicroEffect s t) :
    t.micro.command = s.micro.command ∨ t.micro = .idle := by
  cases h with
  | idle h => exact .inl rfl
  | waits hr hi hc => exact .inl rfl
  | issues hr hi => exact .inl rfl
  | answered hr hi hc h => exact h.command_cases
  | settles h => exact .inl h.command_eq
  | finishesInit h => exact .inr rfl
  | finishesPoll h => exact .inr rfl

/-- CS_VALID is 0 and no `POLL`, the one command that sets it, is in progress. -/
def CsStaysInvalid (s : State) : Prop := s.csValid = false ∧ s.micro.command ≠ some .poll

theorem MicroEffect.csStaysInvalid {s t : State} (h : MicroEffect s t) (hs : CsStaysInvalid s) : CsStaysInvalid t := by
  obtain ⟨hv, hpoll⟩ := hs
  constructor
  · obtain ⟨-, hsame⟩ | ⟨rep, hp4, -⟩ := h.cs_cases
    · exact hsame.trans hv
    · exact absurd (by rw [hp4]; rfl) hpoll
  · obtain hc | hc := h.command_cases
    · rwa [hc]
    · rw [hc]; nofun

/-- Settles O30: every micro-step extends the state it finds, and none but one of `POLL` sets CS_VALID. -/
theorem initializeFrame : Obligations.InitializeFrame := by
  intro s t hst
  rw [Accepts.init.exec_eq] at hst
  cases hst
  have hv : CsStaysInvalid (runMicro s.burst (beginInitialize s)) :=
    runMicro_keeps (fun u => (microStep_effect u).csStaysInvalid) _ ⟨rfl, nofun⟩
  have hx := runMicro_extends s.burst (beginInitialize s)
  exact ⟨hv.1, ⟨hx.cmds, hx.rst, hx.burst⟩, hx.answers⟩

/-- Settles O29: I0 is the whole of a turn of one step. -/
theorem initializeBeginsUnlocking : Obligations.InitializeBeginsUnlocking := by
  intro s hb
  have hexec : exec .init s = .next (beginInitialize s) := by rw [Accepts.init.exec_eq, hb]; rfl
  exact ⟨_, hexec, rfl, rfl, rfl, rfl, rfl, ⟨rfl, rfl, rfl⟩, rfl, rfl⟩

/-! The five requests of INITIALIZE by number, from 0. -/

/-- The micro-step that issues the request with a number (40_initialize.md R92). -/
def initStage : Nat → Micro
  | 0 => .i1
  | 1 => .i3
  | 2 => .i5
  | 3 => .i7 .select
  | _ => .i7 .read

/-- The request with a number (R94). -/
def initRequest : Nat → Request
  | 0 => unlockAWrite
  | 1 => unlockBWrite
  | 2 => formatWrite
  | 3 => selectorWrite
  | _ => reportRead

/-- What the answer to the request with a number leads to (R92). -/
def initAnswered : Nat → Answer → State → State
  | 0 => afterWrite (failInit .transportError) (goto .i2)
  | 1 => afterWrite (failInit .transportError) (goto .i4)
  | 2 => afterWrite (failInit .transportError) formatSelected
  | 3 => afterWrite (failInit .transportError) (goto (.i7 .settle))
  | _ => afterRead failInit baselineCaptured

/-- What is shown after the `Ok` to a write, before the next request: the settle, and the phase I5 enters. -/
def afterOkEvents : Nat → List Event
  | 2 => [.phase .modeConfigured, .settle 1000]
  | 3 => [.settle 500]
  | _ => [.settle 1000]

/-- What is shown from a request on, through the writes that these answers are to. -/
def writeEvents : Nat → List Answer → List Event
  | _, [] => []
  | k, a :: oks => .request (initRequest k) :: .answer a :: (afterOkEvents k ++ writeEvents (k + 1) oks)

theorem initStage_request (k : Nat) : (initStage k).request = some (initRequest k) := by
  match k with
  | 0 | 1 | 2 | 3 | _ + 4 => rfl

theorem initRequests_drop {k : Nat} (hk : k < 5) :
    initRequests.drop k = initRequest k :: initRequests.drop (k + 1) := by
  match k, hk with
  | 0, _ | 1, _ | 2, _ | 3, _ | 4, _ => rfl

theorem initRequests_take_succ {k : Nat} (hk : k < 5) :
    initRequests.take (k + 1) = initRequests.take k ++ [initRequest k] := by
  match k, hk with
  | 0, _ | 1, _ | 2, _ | 3, _ | 4, _ => rfl

theorem microStep_initStage {s : State} {k : Nat} (hm : s.micro = initStage k) :
    microStep s = transact (initRequest k) (initAnswered k) s := by
  unfold microStep
  rw [hm]
  match k with
  | 0 | 1 | 2 | 3 | _ + 4 => rfl

theorem initAnswered_err (k : Nat) (s : State) : initAnswered k .err s = failInit .transportError s := by
  match k with
  | 0 | 1 | 2 | 3 | _ + 4 => rfl

theorem initAnswered_short {n : Fin 9} (hn : n.val < 8) (d : Report) (s : State) :
    initAnswered 4 (.ok n d) s = failInit .readLengthError s := if_pos hn

theorem requestsOf_afterOkEvents (k : Nat) : requestsOf (afterOkEvents k) = [] := by
  unfold afterOkEvents; split <;> rfl

theorem responsesOf_afterOkEvents (k : Nat) : responsesOf (afterOkEvents k) = [] := by
  unfold afterOkEvents; split <;> rfl

theorem requestsOf_writeEvents {k : Nat} {oks : List Answer} (hk : k + oks.length ≤ 4) :
    requestsOf (writeEvents k oks) = (initRequests.drop k).take oks.length := by
  induction oks generalizing k with
  | nil => rfl
  | cons a oks ih =>
    rw [List.length_cons] at hk
    rw [initRequests_drop (by omega), List.length_cons, List.take_succ_cons, ← ih (k := k + 1) (by omega)]
    simp [writeEvents, requestsOf, requestsOf_afterOkEvents]

theorem responsesOf_writeEvents (k : Nat) (oks : List Answer) : responsesOf (writeEvents k oks) = [] := by
  induction oks generalizing k with
  | nil => rfl
  | cons a oks ih => simp [writeEvents, responsesOf, responsesOf_afterOkEvents, ih]

/-! A run of INITIALIZE from one request to the next. -/

/-- Where a run stands while no request is outstanding: its next micro-step, the answers to come, what it has shown. -/
structure StandsAt (m : Micro) (rest : List Answer) (es : List Event) (s : State) : Prop where
  micro : s.micro = m
  inflight : s.inflight = none
  coming : coming s = rest
  out : s.out = es

theorem transact_answered {s : State} {r q : Request} {k : Answer → State → State} {a : Answer} {rest : List Answer}
    (hi : s.inflight = some q) (hc : coming s = a :: rest) : transact r k s = k a (takeAnswer a rest s) := by
  simp [transact, hi, answerFor_some.mpr hc]

theorem standsAt_beginInitialize (s : State) :
    StandsAt (initStage 0) (coming s) [.accepted .init, .phase .unlocking] (beginInitialize s) :=
  ⟨rfl, rfl, rfl, rfl⟩

/-- Two micro-steps issue a request whose answer is to come and take that answer. -/
theorem StandsAt.exists_answered {k : Nat} {a : Answer} {rest : List Answer} {es : List Event} {s : State}
    (h : StandsAt (initStage k) (a :: rest) es s) :
    ∃ u, StandsAt (initStage k) rest (es ++ [.request (initRequest k), .answer a]) u ∧
      runMicro 2 s = initAnswered k a u := by
  refine ⟨takeAnswer a rest (issue (initRequest k) s), ⟨h.micro, rfl, rfl, by simp [h.out]⟩, ?_⟩
  have hissue : microStep s = issue (initRequest k) s :=
    microStep_issues (by rw [h.micro, initStage_request]) h.inflight
  have hmicro : (issue (initRequest k) s).micro = initStage k := h.micro
  rw [runMicro_succ, hissue, runMicro_succ, runMicro_zero, microStep_initStage hmicro]
  exact transact_answered rfl h.coming

/-- After the `Ok` to a write comes its settle, and then the next request. -/
theorem StandsAt.settles_after_ok {m : Micro} {k : Nat} {rest : List Answer} {es : List Event} {u : State}
    (h : StandsAt m rest es u) (hk : k < 4) (n : Fin 9) (d : Report) :
    StandsAt (initStage (k + 1)) rest (es ++ afterOkEvents k) (microStep (initAnswered k (.ok n d) u)) := by
  have hout : u.out ++ afterOkEvents k = es ++ afterOkEvents k := by rw [h.out]
  match k, hk with
  | 0, _ | 1, _ | 3, _ => exact ⟨rfl, h.inflight, h.coming, hout⟩
  | 2, _ => exact ⟨rfl, h.inflight, h.coming, (List.append_assoc ..).trans hout⟩

/-- A write answered `Ok` takes three micro-steps: the request, its answer, the settle. -/
theorem StandsAt.passes_write {k : Nat} {n : Fin 9} {d : Report} {rest : List Answer} {es : List Event} {s : State}
    (h : StandsAt (initStage k) (.ok n d :: rest) es s) (hk : k < 4) :
    StandsAt (initStage (k + 1)) rest (es ++ [.request (initRequest k), .answer (.ok n d)] ++ afterOkEvents k)
      (runMicro 3 s) := by
  obtain ⟨u, hu, hrun⟩ := h.exists_answered
  rw [runMicro_add 2 1, hrun]
  exact hu.settles_after_ok hk n d

theorem StandsAt.passes_writes {k : Nat} {oks rest : List Answer} {es : List Event} {s : State}
    (h : StandsAt (initStage k) (oks ++ rest) es s) (hk : k + oks.length ≤ 4) (hok : ∀ a ∈ oks, isOk a = true) :
    StandsAt (initStage (k + oks.length)) rest (es ++ writeEvents k oks) (runMicro (3 * oks.length) s) := by
  induction oks generalizing k es s with
  | nil => simpa [writeEvents] using h
  | cons a oks ih =>
    rw [List.forall_mem_cons] at hok
    rw [List.length_cons] at hk ⊢
    cases a with
    | err => exact absurd hok.1 (by decide)
    | ok n d =>
      have hrest := ih (h.passes_write (by omega)) (by omega) hok.2
      rw [Nat.mul_succ, Nat.add_comm (3 * oks.length), runMicro_add, ← Nat.add_assoc,
        Nat.add_right_comm]
      simpa [writeEvents] using hrest

/-- The writes answered so far, from acceptance. -/
theorem standsAt_after_writes {s : State} {oks rest : List Answer} (hc : coming s = oks ++ rest)
    (hk : oks.length ≤ 4) (hok : ∀ a ∈ oks, isOk a = true) :
    StandsAt (initStage oks.length) rest ([.accepted .init, .phase .unlocking] ++ writeEvents 0 oks)
      (runMicro (3 * oks.length) (beginInitialize s)) := by
  have hbegin := standsAt_beginInitialize s
  rw [hc] at hbegin
  have hrun := hbegin.passes_writes (by omega) hok
  rwa [Nat.zero_add] at hrun

/-! The ends of INITIALIZE. -/

theorem StandsAt.after_failInit {m : Micro} {rest : List Answer} {es : List Event} {u : State} (h : StandsAt m rest es u)
    (e : Status) :
    StandsAt .idle rest (es ++ [.phase .uninitialized, .response ⟨e, none⟩]) (failInit e u) :=
  ⟨rfl, h.inflight, h.coming, by simp [failInit, h.out]⟩

/-- I7's end and I8. -/
theorem StandsAt.after_initDone {m : Micro} {rest : List Answer} {es : List Event} {u : State} (h : StandsAt m rest es u)
    (rep : Report) :
    StandsAt .idle rest (es ++ [.phase .calibrated, .phase .ready, .response ⟨.ok, none⟩])
      (initDone (baselineCaptured rep u)) :=
  ⟨rfl, h.inflight, h.coming, by simp [initDone, baselineCaptured, h.out]⟩

theorem StandsAt.idleNow {rest : List Answer} {es : List Event} {t : State} (h : StandsAt .idle rest es t) :
    idleNow t := ⟨h.micro, h.inflight⟩

/-- A command that ends within its turn has done what it does by then. -/
theorem exec_init_of_ended {s : State} {n : Nat} (hn : n ≤ s.burst)
    (hidle : (runMicro n (beginInitialize s)).micro = .idle) :
    exec .init s = .next (runMicro n (beginInitialize s)) := by
  obtain ⟨j, hj⟩ := Nat.exists_eq_add_of_le hn
  rw [Accepts.init.exec_eq, hj, runMicro_add, runMicro_fixed (microStep_idle hidle)]

/-- The last row of the atomic table (40_initialize.md R95): what a successful `INITIALIZE` shows and leaves. -/
theorem exec_init_succeeds {s : State} {n1 n2 n3 n4 : Fin 9} {d1 d2 d3 d4 rep : Report} {rest : List Answer}
    (hc : coming s = .ok n1 d1 :: .ok n2 d2 :: .ok n3 d3 :: .ok n4 d4 :: .ok 8 rep :: rest) (hb : 15 ≤ s.burst) :
    ∃ t, exec .init s = .next t ∧ t.phase = .ready ∧ t.bl = baselineOf rep ∧
      StandsAt .idle rest ([.accepted .init, .phase .unlocking] ++
        writeEvents 0 [.ok n1 d1, .ok n2 d2, .ok n3 d3, .ok n4 d4] ++
        [.request reportRead, .answer (.ok 8 rep)] ++
        [.phase .calibrated, .phase .ready, .response ⟨.ok, none⟩]) t := by
  have hwritten := standsAt_after_writes (oks := [.ok n1 d1, .ok n2 d2, .ok n3 d3, .ok n4 d4]) hc (by simp)
    (by simp [isOk])
  obtain ⟨u, hu, hread⟩ := hwritten.exists_answered
  have hend : runMicro 15 (beginInitialize s) = initDone (baselineCaptured rep u) := by
    rw [runMicro_add 14 1, runMicro_add 12 2]
    exact congrArg (runMicro 1) hread
  have ht := hu.after_initDone rep
  refine ⟨initDone (baselineCaptured rep u), ?_, rfl, rfl, ht⟩
  rw [← hend]
  exact exec_init_of_ended hb (hend ▸ ht.micro)

/-- A failing row of the atomic table (40_initialize.md R95): after some writes answered `Ok`, an answer on which the
command fails. -/
theorem exec_init_fails {s : State} {oks rest : List Answer} {a : Answer} {e : Status} (hb : 14 ≤ s.burst)
    (hok : ∀ a ∈ oks, isOk a = true) (hk : oks.length ≤ 4) (hc : coming s = oks ++ a :: rest)
    (hfail : ∀ u, initAnswered oks.length a u = failInit e u) :
    ∃ t, exec .init s = .next t ∧ t.phase = .uninitialized ∧ t.csValid = false ∧ sameInputs s t ∧ idleNow t ∧
      coming t = rest ∧ requestsOf t.out = initRequests.take (oks.length + 1) ∧
      responsesOf t.out = [⟨e, none⟩] := by
  obtain ⟨u, hu, hanswered⟩ := (standsAt_after_writes hc hk hok).exists_answered
  have hend : runMicro (3 * oks.length + 2) (beginInitialize s) = failInit e u := by
    rw [runMicro_add, hanswered, hfail]
  have ht := hu.after_failInit e
  have hexec : exec .init s = .next (failInit e u) := by
    rw [← hend]
    exact exec_init_of_ended (by omega) (hend ▸ ht.micro)
  obtain ⟨hv, hin, -⟩ := initializeFrame s _ hexec
  refine ⟨_, hexec, rfl, hv, hin, ht.idleNow, ht.coming, ?_, ?_⟩
  · rw [ht.out, initRequests_take_succ (by omega)]
    simp [requestsOf, requestsOf_writeEvents (k := 0) (oks := oks) (by omega)]
  · rw [ht.out]
    simp [responsesOf, responsesOf_writeEvents]

/-- Settles O26: the end of `exec_init_succeeds`, its events cut down to requests and responses. -/
theorem initializeCompletes : Obligations.InitializeCompletes := by
  intro s n1 n2 n3 n4 d1 d2 d3 d4 rep rest hc hb
  obtain ⟨t, hexec, hphase, hbl, ht⟩ := exec_init_succeeds hc hb
  obtain ⟨hv, hin, -⟩ := initializeFrame s t hexec
  refine ⟨t, hexec, hphase, hv, ?_⟩
  rw [hbl, ht.out]
  exact ⟨rfl, rfl, rfl, rfl, rfl, rfl, hin, ht.idleNow, ht.coming, rfl, rfl⟩

/-- Settles O27: the events of `exec_init_succeeds`, written out. -/
theorem initializeEventOrder : Obligations.InitializeEventOrder := by
  intro s n1 n2 n3 n4 d1 d2 d3 d4 rep rest hc hb
  obtain ⟨t, hexec, -, -, ht⟩ := exec_init_succeeds hc hb
  exact ⟨t, hexec, ht.out⟩

/-- Settles O28: an `Err` to any request, or a short read, is an answer on which `INITIALIZE` fails. -/
theorem initializeFailureRows : Obligations.InitializeFailureRows := by
  intro s oks rest hb hok
  refine ⟨fun hk hc => exec_init_fails hb hok hk hc (initAnswered_err _), fun n d hn hlen hc => ?_⟩
  have h := exec_init_fails hb hok hlen.le hc (e := .readLengthError) fun u => hlen ▸ initAnswered_short hn d u
  rwa [hlen] at h

end Sys2Proof.Machine
end

section
/-! PROOF. POLL (41_poll.md R110 to R116): what it leaves alone for every answer, then its two requests, what an answer
to each leads to, and how it ends. -/

namespace Sys2Proof.Machine

open Sys2Proof.Claims

/-! What POLL leaves alone. -/

theorem Answered.phase_bl_of_poll {m : Micro} {a : Answer} {s t : State} (h : Answered m a s t)
    (hm : m.command = some .poll) : t.phase = s.phase ∧ t.bl = s.bl := by
  cases h with
  | wrote h => exact ⟨rfl, rfl⟩
  | polled h hn => exact ⟨rfl, rfl⟩
  | pollError h hr => exact ⟨rfl, rfl⟩
  | pollShort h hn => exact ⟨rfl, rfl⟩
  | format h => simp [h, Micro.command] at hm
  | captured h hn => simp [h, Micro.command] at hm
  | initError h hr => simp [h] at hm
  | initShort h hn => simp [h, Micro.command] at hm

/-- No micro-step of `POLL` writes PHASE or `BL` (R110). -/
theorem MicroEffect.phase_bl_of_poll {s t : State} (h : MicroEffect s t) (hs : s.micro.command = some .poll) :
    t.phase = s.phase ∧ t.bl = s.bl := by
  cases h with
  | idle h => exact ⟨rfl, rfl⟩
  | waits hr hi hc => exact ⟨rfl, rfl⟩
  | issues hr hi => exact ⟨rfl, rfl⟩
  | answered hr hi hc h => exact h.phase_bl_of_poll hs
  | settles h => exact ⟨rfl, rfl⟩
  | finishesInit h => simp [h, Micro.command] at hs
  | finishesPoll h => exact ⟨rfl, rfl⟩

/-- What a `POLL` accepted in `s` has made of the registers when the block stands in `u`. -/
structure PollWritten (s u : State) : Prop where
  phase : u.phase = s.phase
  bl : u.bl = s.bl
  command : u.micro.command = some .poll ∨ u.micro = .idle
  responded : RespondedAtEnd False u
  cs : (u.cs = s.cs ∧ u.csValid = s.csValid) ∨ (u.csValid = true ∧ responsesOf u.out = [⟨.ok, some u.cs⟩])

/-- The acceptance of `POLL`, in progress or refused, writes no register and touches no input and no answer. -/
theorem Accepts.poll_frame {s u : State} (h : Accepts s .poll u) :
    PollWritten s u ∧ u.fresh = s.fresh ∧ sameInputs s u ∧ coming u = coming s := by
  have hresp := h.respondedAtEnd False
  cases h with
  | poll h => exact ⟨⟨rfl, rfl, .inl rfl, hresp, .inl ⟨rfl, rfl⟩⟩, rfl, ⟨rfl, rfl, rfl⟩, rfl⟩
  | refused hi h => exact ⟨⟨rfl, rfl, .inr rfl, hresp, .inl ⟨rfl, rfl⟩⟩, rfl, ⟨rfl, rfl, rfl⟩, rfl⟩

/-- While `POLL` is in progress nothing was answered, so that P4, which stores `CS`, gives the turn's one response. -/
theorem MicroEffect.pollWritten {s u v : State} (h : MicroEffect u v) (hw : PollWritten s u) : PollWritten s v := by
  by_cases hm : u.micro = .idle
  · rwa [h.eq_of_idle hm]
  have hquiet := hw.responded.none_of_busy hm
  have hpoll := hw.command.resolve_right hm
  obtain ⟨hphase, hbl⟩ := h.phase_bl_of_poll hpoll
  refine ⟨hphase.trans hw.phase, hbl.trans hw.bl, h.command_cases.imp_left (·.trans hpoll),
    h.respondedAtEnd hw.responded, ?_⟩
  obtain ⟨hcs, hvalid⟩ | ⟨rep, -, rfl⟩ := h.cs_cases
  · obtain ⟨hcs', hvalid'⟩ | ⟨-, hone⟩ := hw.cs
    · exact .inl ⟨hcs.trans hcs', hvalid.trans hvalid'⟩
    · simp [hquiet] at hone
  · exact .inr ⟨rfl, by simp [pollDone, hquiet, responsesOf]⟩

/-- Settles O25: acceptance leaves all as it was, and every micro-step extends the state and writes what `PollWritten`
says. -/
theorem pollFrame : Obligations.PollFrame := by
  intro s t hst
  obtain ⟨u, hu⟩ := exists_accepts .poll s
  rw [hu.exec_eq] at hst
  cases hst
  obtain ⟨hw, hfresh, ⟨hcmds, hrst, hburst⟩, hcoming⟩ := hu.poll_frame
  have hx := runMicro_extends s.burst u
  have ht : PollWritten s (runMicro s.burst u) := runMicro_keeps (fun v => (microStep_effect v).pollWritten) _ hw
  exact ⟨ht.phase, ht.bl, hx.fresh.trans hfresh,
    ⟨hx.cmds.trans hcmds, hx.rst.trans hrst, hx.burst.trans hburst⟩, hcoming ▸ hx.answers, ht.cs⟩

/-- A command that ends within the turn that accepts it has done what it does by then. -/
theorem Accepts.exec_eq_of_ended {s u : State} {i : Instr} {n : Nat} (h : Accepts s i u) (hn : n ≤ s.burst)
    (hidle : (runMicro n u).micro = .idle) : exec i s = .next (runMicro n u) := by
  obtain ⟨j, hj⟩ := Nat.exists_eq_add_of_le hn
  rw [h.exec_eq, hj, runMicro_add, runMicro_fixed (microStep_idle hidle)]

/-- Settles O24: the refusal is the whole of the command. -/
theorem pollIsRefusedOutsideReady : Obligations.PollIsRefusedOutsideReady := by
  intro s hp
  have hexec := (Accepts.refused (i := .poll) nofun hp).exec_eq_of_ended (Nat.zero_le _) rfl
  exact ⟨_, hexec, ⟨rfl, rfl, rfl, rfl, rfl⟩, ⟨rfl, rfl, rfl⟩, ⟨rfl, rfl⟩, ⟨rfl, rfl⟩, rfl⟩

/-! The two requests of POLL. -/

/-- `POLL` accepted in `Ready`, before P1. -/
def beginPoll (s : State) : State := goto (.poll .select) (accept .poll s)

theorem accepts_beginPoll {s : State} (hp : s.phase = .ready) : Accepts s .poll (beginPoll s) := .poll hp

theorem standsAt_beginPoll (s : State) : StandsAt (.poll .select) (coming s) [.accepted .poll] (beginPoll s) :=
  ⟨rfl, rfl, rfl, rfl⟩

theorem microStep_poll {s : State} {r : ReadStep} (hm : s.micro = .poll r) :
    microStep s = readReport .poll failPoll (fun rep => goto (.p4 rep)) r s := by
  unfold microStep
  rw [hm]

theorem microStep_p4 {s : State} {rep : Report} (hm : s.micro = .p4 rep) : microStep s = pollDone rep s := by
  unfold microStep
  rw [hm]

/-- Two steps at a micro-step that makes a request issue it and take the answer that is to come. -/
theorem StandsAt.takes_answer {m : Micro} {r : Request} {k : Answer → State → State} {a : Answer}
    {rest : List Answer} {es : List Event} {s : State} (h : StandsAt m (a :: rest) es s) (hr : m.request = some r)
    (hk : ∀ u : State, u.micro = m → microStep u = transact r k u) :
    ∃ u, StandsAt m rest (es ++ [.request r, .answer a]) u ∧ runMicro 2 s = k a u := by
  refine ⟨takeAnswer a rest (issue r s), ⟨h.micro, rfl, rfl, by simp [h.out]⟩, ?_⟩
  have hissue : microStep s = issue r s := microStep_issues (h.micro ▸ hr) h.inflight
  have hmicro : (issue r s).micro = m := h.micro
  rw [runMicro_succ, hissue, runMicro_succ, runMicro_zero, hk _ hmicro]
  exact transact_answered rfl h.coming

/-- P1: the answer to the selector write. -/
theorem beginPoll_selects {s : State} {a : Answer} {rest : List Answer} (hc : coming s = a :: rest) :
    ∃ u, StandsAt (.poll .select) rest [.accepted .poll, .request selectorWrite, .answer a] u ∧
      runMicro 2 (beginPoll s) = afterWrite (failPoll .transportError) (goto (.poll .settle)) a u :=
  (hc ▸ standsAt_beginPoll s).takes_answer rfl fun _ hm => microStep_poll hm

/-- What `POLL` shows through P2 when the selector write is answered `Ok`. -/
def pollSelected (n : Fin 9) (d : Report) : List Event :=
  [.accepted .poll, .request selectorWrite, .answer (.ok n d), .settle 500]

/-- P1 answered `Ok`, and P2. -/
theorem standsAt_pollSelected {s : State} {n : Fin 9} {d : Report} {rest : List Answer}
    (hc : coming s = .ok n d :: rest) :
    StandsAt (.poll .read) rest (pollSelected n d) (runMicro 3 (beginPoll s)) := by
  obtain ⟨u, hu, hselect⟩ := beginPoll_selects hc
  have hsettle : runMicro 3 (beginPoll s) = settleFor 500 (.poll .read) (goto (.poll .settle) u) := by
    rw [runMicro_add 2 1, hselect]
    exact microStep_poll (s := goto (.poll .settle) u) rfl
  rw [hsettle]
  exact ⟨rfl, hu.inflight, hu.coming, by simp [hu.out, pollSelected]⟩

/-- P3: the answer to the report read. -/
theorem beginPoll_reads {s : State} {n : Fin 9} {d : Report} {a : Answer} {rest : List Answer}
    (hc : coming s = .ok n d :: a :: rest) :
    ∃ u, StandsAt (.poll .read) rest (pollSelected n d ++ [.request reportRead, .answer a]) u ∧
      runMicro 5 (beginPoll s) = afterRead failPoll (fun rep => goto (.p4 rep)) a u := by
  rw [runMicro_add 3 2]
  exact (standsAt_pollSelected hc).takes_answer rfl fun _ hm => microStep_poll hm

/-! The ends of POLL. -/

/-- A failing row (R113, R115): a `POLL` whose one response carries no `CS` has written no register. -/
theorem exec_poll_fails {s u : State} {m : Micro} {rest : List Answer} {es : List Event} {e : Status} {n : Nat}
    (hp : s.phase = .ready) (hn : n ≤ s.burst) (hend : runMicro n (beginPoll s) = failPoll e u)
    (hu : StandsAt m rest es u) (hes : responsesOf es = []) :
    ∃ t, exec .poll s = .next t ∧ sameRegisters s t ∧ sameInputs s t ∧ idleNow t ∧ coming t = rest ∧
      requestsOf t.out = requestsOf es ∧ responsesOf t.out = [⟨e, none⟩] := by
  have hexec : exec .poll s = .next (failPoll e u) :=
    hend ▸ (accepts_beginPoll hp).exec_eq_of_ended hn (hend ▸ rfl)
  have hout : (failPoll e u).out = es ++ [.response ⟨e, none⟩] := hu.out ▸ rfl
  have hresp : responsesOf (failPoll e u).out = [⟨e, none⟩] := by simp [hout, hes, responsesOf]
  obtain ⟨hphase, hbl, hfresh, hin, -, ⟨hcs, hvalid⟩ | ⟨-, hok⟩⟩ := pollFrame s _ hexec
  · exact ⟨_, hexec, ⟨hphase, hvalid, hbl, hcs, hfresh⟩, hin, ⟨rfl, hu.inflight⟩, hu.coming,
      by simp [hout, requestsOf], hresp⟩
  · simp [hresp] at hok

/-- Settles O21: P1 to P3 read the report, and P4 stores and answers its decode. -/
theorem pollCompletes : Obligations.PollCompletes := by
  intro s n d rep rest hp hc hb
  obtain ⟨u, hu, hread⟩ := beginPoll_reads hc
  have hend : runMicro 6 (beginPoll s) = pollDone rep (goto (.p4 rep) u) := by
    rw [runMicro_add 5 1, hread]
    exact microStep_p4 (s := goto (.p4 rep) u) rfl
  have hexec : exec .poll s = .next (pollDone rep (goto (.p4 rep) u)) :=
    hend ▸ (accepts_beginPoll hp).exec_eq_of_ended hb (hend ▸ rfl)
  obtain ⟨hphase, hbl, hfresh, hin, -⟩ := pollFrame s _ hexec
  have hub : u.bl = s.bl := hbl
  refine ⟨_, hexec, hub ▸ rfl, rfl, hphase.trans hp, hbl, hfresh, hin, ⟨rfl, hu.inflight⟩, hu.coming, ?_⟩
  simp [pollDone, hu.out, hub, pollSelected]

/-- Settles O22: a read of fewer than eight bytes is an answer on which `POLL` fails. -/
theorem pollShortReadRetainsState : Obligations.PollShortReadRetainsState := by
  intro s n m d d' rest hp hc hm hb
  obtain ⟨u, hu, hread⟩ := beginPoll_reads hc
  exact exec_poll_fails hp hb (hread.trans (if_pos hm)) hu rfl

/-- Settles O23: `POLL` fails on an `Err` to the selector write, with no read issued, and on an `Err` to the read. -/
theorem pollTransportErrorRetainsState : Obligations.PollTransportErrorRetainsState := by
  intro s rest hp hb
  refine ⟨fun hc => ?_, fun n d hc => ?_⟩
  · obtain ⟨u, hu, hselect⟩ := beginPoll_selects hc
    exact exec_poll_fails hp (by omega) hselect hu rfl
  · obtain ⟨u, hu, hread⟩ := beginPoll_reads hc
    exact exec_poll_fails hp hb hread hu rfl

end Sys2Proof.Machine
end

section
/-! PROOF. The datapath of `decode` (42_decode.md R127 to R140): its two pipelines, its two unpackers, and the fields of
the ControllerState they give. -/

namespace Sys2Proof.Machine

open Sys2Proof.Claims

/-! The signed pipeline. -/

theorem center_toInt_bounds (raw base : Byte) : -255 ≤ (center raw base).toInt ∧ (center raw base).toInt ≤ 255 := by
  have hr := raw.isLt
  have hb := base.isLt
  rw [center_toInt]
  omega

@[simp] theorem center_self (b : Byte) : center b b = 0 := BitVec.sub_self _

/-- Settles O6: the integer difference needs no more than nine bits. -/
theorem centerIsTheExactDifference : Obligations.CenterIsTheExactDifference := fun raw base =>
  have ⟨hlo, hhi⟩ := center_toInt_bounds raw base
  ⟨center_toInt raw base, hlo, hhi, rfl⟩

theorem center_eq_zero_iff {raw base : Byte} : center raw base = 0 ↔ raw = base := by
  have hzero : (0 : BitVec 9).toInt = 0 := BitVec.toInt_zero
  rw [← BitVec.toInt_inj, center_toInt, ← BitVec.toNat_inj, hzero]
  omega

/-- A centered value of -256 would be outside the bounds (R133(c)). -/
theorem center_ne_minimum (raw base : Byte) : center raw base ≠ 0x100 := by
  intro h
  have ⟨hlo, _⟩ := center_toInt_bounds raw base
  have hmin : (center raw base).toInt = -256 := h ▸ by decide
  omega

/-- Settles O7: the laws of `center` follow from its being a difference. -/
theorem centerCornerCases : Obligations.CenterCornerCases :=
  ⟨fun _ _ => center_eq_zero_iff, by decide, by decide,
    fun raw base => ⟨center_ne_minimum raw base, (neg_sub (base.setWidth 9) (raw.setWidth 9)).symm⟩⟩

/-! The unsigned pipeline. -/

@[simp] theorem depth_self (b : Byte) : depth b b = 0 := if_pos le_rfl

/-- Settles O8: `depth` is truncated subtraction. -/
theorem depthIsFlooredAtZero : Obligations.DepthIsFlooredAtZero := by
  intro raw base
  have hr := raw.isLt
  rw [depth_toNat]
  omega

/-- Bit 8 of a centered value is its sign (R136). -/
theorem center_signBit (raw base : Byte) : (center raw base).getLsbD 8 = decide (raw.toNat < base.toNat) := by
  have hsign : (center raw base).getLsbD 8 = decide ((center raw base).toInt < 0) :=
    (BitVec.msb_eq_getLsbD_last _).symm.trans BitVec.msb_eq_toInt
  rw [hsign, center_toInt, decide_eq_decide]
  omega

/-- Without its sign bit, a centered value is the difference modulo 256. -/
theorem center_setWidth (raw base : Byte) : (center raw base).setWidth 8 = raw - base := by
  apply BitVec.eq_of_toNat_eq
  have hr := raw.isLt
  have hb := base.isLt
  simp only [center, BitVec.toNat_setWidth, BitVec.toNat_sub]
  omega

/-- Settles O9: the two pipelines share one difference; at equality, where only `depth` takes the zero branch, it is 0. -/
theorem depthIsCenterFlooredAtZero : Obligations.DepthIsCenterFlooredAtZero := by
  intro raw base
  refine ⟨by rw [center_signBit, decide_eq_true_iff], ?_, ?_⟩
  · rw [center_signBit, center_setWidth]
    obtain hlt | heq | hgt := lt_trichotomy raw.toNat base.toNat
    · rw [depth, if_pos hlt.le, if_pos (decide_eq_true hlt)]
    · rw [BitVec.eq_of_toNat_eq heq]
      simp
    · rw [depth, if_neg hgt.not_ge, if_neg (by simpa using hgt.le)]
  · rw [depth_toNat, center_toInt]
    omega

/-! The unpackers. -/

/-- Byte by byte: the bytes packed below it pass, and it is the lowest left (20_memory.md R60). -/
theorem unpackSamples_packed (b0 b1 b2 b3 b4 b5 b6 b7 : Byte) :
    unpackSamples (b7 ++ b6 ++ b5 ++ b4 ++ b3 ++ b2 ++ b1 ++ b0 : BitVec 64) = ⟨b0, b1, b2, b3, b4, b5⟩ := by
  rw [unpackSamples]
  congr 1
  all_goals
    rw [byteAt]
    repeat rw [BitVec.extractLsb'_append_eq_of_le (by decide)]
    exact BitVec.extractLsb'_append_eq_right

/-- Settles O10: `decode` hands the unpacked samples on. -/
theorem samplesInWireOrder : Obligations.SamplesInWireOrder := by
  intro b0 b1 b2 b3 b4 b5 b6 b7
  have h := unpackSamples_packed b0 b1 b2 b3 b4 b5 b6 b7
  refine ⟨h, fun base => ?_⟩
  simp [decodeReport, h]

/-- The row of the unpacker's table for a button names its report bit (30_encoding.md R74). -/
theorem buttonTable_index (button : Button) :
    buttonTable[button.index]? = some (repBitOf button / 8, repBitOf button % 8) := by
  cases button <;> rfl

theorem Button.index_lt (button : Button) : button.index < 15 := by cases button <;> decide

theorem unpackButtons_index (rep : Report) (button : Button) :
    (unpackButtons rep).getLsbD button.index = rep.getLsbD (repBitOf button) := by
  rw [unpackButtons, gather_getLsbD _ _ _ button.index_lt, buttonTable_index]
  exact (wireBit_eq _ _ _ (Nat.mod_lt _ (by decide))).trans (congrArg _ (Nat.div_add_mod _ 8))

theorem invert_getLsbD (w : BitVec 15) {n : Nat} (hn : n < 15) : (invert w).getLsbD n = !w.getLsbD n := by
  rw [invert, BitVec.getLsbD_not, decide_eq_true hn, Bool.true_and]

/-- A button is pressed exactly when its report bit is 0 (R131). -/
theorem decodeReport_pressed (rep : Report) (base : Baseline) (button : Button) :
    (decodeReport rep base).pressed button = !rep.getLsbD (repBitOf button) :=
  (invert_getLsbD _ button.index_lt).trans (congrArg _ (unpackButtons_index rep button))

/-- The wire vector is a function of bytes 6 and 7 (R128). -/
theorem unpackButtons_eq_of_high {rep rep' : Report} (h : rep.extractLsb' 48 16 = rep'.extractLsb' 48 16) :
    unpackButtons rep = unpackButtons rep' := by
  rw [unpackButtons_eq_iff]
  rintro n ⟨hlo, hhi⟩
  obtain ⟨k, rfl⟩ := Nat.exists_eq_add_of_lt hlo
  have hbit := congrArg (BitVec.getLsbD · (k + 1)) h
  simpa [show k + 1 < 16 by omega, ← Nat.add_assoc] using hbit

/-- Settles O11: lane by lane by the table; the whole-byte cases by one report with those bytes each. -/
theorem buttonsAreInvertedWireBits : Obligations.ButtonsAreInvertedWireBits := by
  refine ⟨unpackButtons_index, fun w _ hn => invert_getLsbD w hn, decodeReport_pressed, fun rep _ h => ?_,
    fun rep _ h => ?_⟩
  · have hw : unpackButtons rep = unpackButtons 0xFFFF000000000000 := unpackButtons_eq_of_high h
    exact (congrArg invert hw).trans (by decide)
  · have hw : unpackButtons rep = unpackButtons 0 := unpackButtons_eq_of_high h
    exact (congrArg invert hw).trans (by decide)

/-! The fields of the ControllerState. -/

/-- Settles O13: a sample is a byte, what a pipeline gives is a function of its sample and its baseline field, and a button
of its report bit. -/
theorem decodeFieldsDependOnTheirInputs : Obligations.DecodeFieldsDependOnTheirInputs := fun rep rep' base base' =>
  ⟨fun h => ⟨h, congrArg₂ center h⟩, fun h => ⟨h, congrArg₂ center h⟩, fun h => ⟨h, congrArg₂ center h⟩,
    fun h => ⟨h, congrArg₂ center h⟩, fun h => ⟨h, congrArg₂ depth h⟩, fun h => ⟨h, congrArg₂ depth h⟩,
    fun button h => by rw [decodeReport_pressed, decodeReport_pressed, h]⟩

/-- Settles O14: each sample meets itself in the baseline, where `center` and `depth` are 0. -/
theorem calibrationZeroesTheReport : Obligations.CalibrationZeroesTheReport := fun q =>
  ⟨center_self _, center_self _, center_self _, center_self _, depth_self _, depth_self _, rfl, rfl, rfl, rfl, rfl, rfl,
    decodeReport_pressed q _⟩

end Sys2Proof.Machine
end

section
/-! PROOF. DECODE (42_decode.md R125, R138, R141): its acceptance is the whole of it. -/

namespace Sys2Proof.Machine

open Sys2Proof.Claims

/-- Settles O15: acceptance in `Ready` delivers the one response and leaves nothing to be done. -/
theorem decodeCompletesInReady : Obligations.DecodeCompletesInReady := by
  intro rep s hp
  have hexec := (Accepts.decode (rep := rep) hp).exec_eq_of_ended (Nat.zero_le _) rfl
  exact ⟨_, hexec, ⟨rfl, rfl, rfl, rfl, rfl⟩, ⟨rfl, rfl, rfl⟩, ⟨rfl, rfl⟩, ⟨rfl, rfl⟩, rfl⟩

/-- Every command but `INITIALIZE` is refused outside `Ready`, and the refusal is the whole of it (60_exceptions.md R171). -/
theorem exec_refused {i : Instr} {s : State} (hi : i ≠ .init) (hp : s.phase ≠ .ready) :
    ∃ t, exec i s = .next t ∧ refusedNotReady i s t := by
  have hexec := (Accepts.refused hi hp).exec_eq_of_ended (Nat.zero_le _) rfl
  exact ⟨_, hexec, ⟨rfl, rfl, rfl, rfl, rfl⟩, ⟨rfl, rfl, rfl⟩, ⟨rfl, rfl⟩, ⟨rfl, rfl⟩, rfl⟩

/-- Settles O16: `DECODE` is one of the commands refused. -/
theorem decodeIsRefusedOutsideReady : Obligations.DecodeIsRefusedOutsideReady := fun _ _ hp => exec_refused nofun hp

/-- Settles O17: the first `DECODE` leaves PHASE and `BL`, all that the response depends on, as they were. -/
theorem decodeTwiceGivesTheSame : Obligations.DecodeTwiceGivesTheSame := by
  intro rep s
  by_cases hp : s.phase = .ready
  · obtain ⟨t, ht, ⟨hphase, -, hbl, -⟩, -, -, -, hout⟩ := decodeCompletesInReady rep s hp
    obtain ⟨u, hu, -, -, -, -, hout'⟩ := decodeCompletesInReady rep t (hphase.trans hp)
    refine ⟨t, u, ht, hu, ?_⟩
    rw [hout', hout, hbl]
    exact ⟨rfl, rfl⟩
  · obtain ⟨t, ht, ⟨hphase, -⟩, -, -, -, hout⟩ := decodeIsRefusedOutsideReady rep s hp
    obtain ⟨u, hu, -, -, -, -, hout'⟩ := decodeIsRefusedOutsideReady rep t (hphase ▸ hp)
    refine ⟨t, u, ht, hu, ?_⟩
    rw [hout', hout]
    exact ⟨rfl, rfl⟩

end Sys2Proof.Machine
end

section
/-! PROOF. CALIBRATE (43_calibrate.md R155 to R159): its acceptance is the whole of it, and the baseline it leaves is that
of every report with the same bytes 0 to 5. -/

namespace Sys2Proof.Machine

open Sys2Proof.Claims

theorem exec_calibrate_of_ready {rep : Report} {s : State} (hp : s.phase = .ready) :
    exec (.calibrate rep) s = .next (respond .ok none (discardCs (calibrateFrom rep (accept (.calibrate rep) s)))) :=
  (Accepts.calibrate hp).exec_eq_of_ended (Nat.zero_le _) rfl

/-- Settles O18: the six fields are the captured baseline's, and clearing CS_VALID keeps them. -/
theorem calibrateCompletesInReady : Obligations.CalibrateCompletesInReady := fun _ _ hp =>
  ⟨_, exec_calibrate_of_ready hp, rfl, rfl, rfl, rfl, rfl, rfl, rfl, hp, ⟨rfl, rfl, rfl⟩, ⟨rfl, rfl⟩, ⟨rfl, rfl⟩, rfl⟩

/-- Settles O19: `CALIBRATE` is one of the commands refused. -/
theorem calibrateIsRefusedOutsideReady : Obligations.CalibrateIsRefusedOutsideReady := fun _ _ hp =>
  exec_refused nofun hp

/-- The samples are a function of bytes 0 to 5 (R127). -/
theorem unpackSamples_eq_of_low {rep rep' : Report} (h : rep.extractLsb' 0 48 = rep'.extractLsb' 0 48) :
    unpackSamples rep = unpackSamples rep' := by
  rw [unpackSamples_eq_iff]
  intro n hn
  have hbit := congrArg (BitVec.getLsbD · n) h
  simpa [hn] using hbit

/-- A captured baseline is a function of bytes 0 to 5 (R156): its fields are the samples. -/
theorem baselineOf_eq_of_low {rep rep' : Report} (h : rep.extractLsb' 0 48 = rep'.extractLsb' 0 48) :
    baselineOf rep = baselineOf rep' := by
  have hs := unpackSamples_eq_of_low h
  simpa only [unpackSamples, baselineOf, Samples.mk.injEq, Baseline.mk.injEq] using hs

/-- Settles O20: the `DECODE` finds in `BL` the baseline of its own operand, under which that operand reads zero. -/
theorem calibrateThenDecodeReadsZero : Obligations.CalibrateThenDecodeReadsZero := by
  intro q r s hp hlow
  obtain ⟨t, ht, hphase, hbl⟩ : ∃ t, exec (.calibrate q) s = .next t ∧ t.phase = .ready ∧ t.bl = baselineOf q :=
    ⟨_, exec_calibrate_of_ready hp, hp, rfl⟩
  obtain ⟨u, hu, -, -, -, -, hout⟩ := decodeCompletesInReady r t hphase
  obtain ⟨hlx, hrx, hly, hry, hlt, hrt, -⟩ := calibrationZeroesTheReport r
  refine ⟨t, u, decodeReport r (baselineOf r), ht, hu, ?_, hlx, hrx, hly, hry, hlt, hrt, rfl⟩
  rw [hout, hbl, baselineOf_eq_of_low hlow]
  rfl

end Sys2Proof.Machine
end

section
/-! PROOF. The exceptions (60_exceptions.md): a request never answered is waited for (R177, R204), and the statuses that the
acceptance and the micro-steps of a command report (R169). -/

namespace Sys2Proof.Machine

/-! Waiting. -/

/-- The turn of a command whose outstanding request is not answered only takes the outputs of the last turn away. -/
theorem step_waits_for_answer {s : State} {r q : Request} (hrst : s.rst = false) (hr : s.micro.request = some r)
    (hi : s.inflight = some q) (hc : coming s = []) : step s = .next (idleTurn s) := by
  have hbusy : s.micro ≠ .idle := Micro.ne_idle_of_request (by simp [hr])
  have hwait : microStep (idleTurn s) = idleTurn s := microStep_waits hr hi hc
  rw [step_resume hrst hbusy, resumeTurn, runMicro_fixed hwait]

/-- Settles O34: one turn of waiting leaves a state in which the block waits again; reset needs no answer. -/
theorem unansweredRequestWaitsForEver : Obligations.UnansweredRequestWaitsForEver := by
  intro s r hrst hr hi hc
  have hfirst : step s = .next (idleTurn s) := step_waits_for_answer hrst hr hi hc
  have hagain : step (idleTurn s) = .next (idleTurn s) := step_waits_for_answer (s := idleTurn s) hrst hr hi hc
  exact ⟨core_run_fixed hfirst hagain, _, step_reset rfl, rfl, rfl⟩

/-! The statuses of the micro-steps. -/

/-- None of the responses of the turn so far is a refusal. -/
def NoneRefused (s : State) : Prop := ∀ r ∈ responsesOf s.out, r.status ≠ .notReadyError

theorem noneRefused_of_responsesOf_nil {s : State} (h : responsesOf s.out = []) : NoneRefused s := by
  simp [NoneRefused, h]

theorem noneRefused_emit {s : State} {e : Event} (he : responsesOf [e] = []) (hs : NoneRefused s) :
    NoneRefused (emit e s) := by
  simpa [NoneRefused, he] using hs

theorem noneRefused_setPhase {s : State} (p : Phase) (hs : NoneRefused s) : NoneRefused (setPhase p s) :=
  noneRefused_emit (s := { s with phase := p }) rfl hs

theorem noneRefused_respond {s : State} {e : Status} (v : Option ControllerState) (he : e ≠ .notReadyError)
    (hs : NoneRefused s) : NoneRefused (respond e v s) := by
  rw [NoneRefused, respond_out, responsesOf_append, List.forall_mem_append]
  exact ⟨hs, List.forall_mem_singleton.mpr he⟩

theorem Answered.noneRefused {m : Micro} {a : Answer} {s t : State} (h : Answered m a s t) (hs : NoneRefused s) :
    NoneRefused t := by
  cases h with
  | wrote h => exact hs
  | format h => exact noneRefused_setPhase _ hs
  | captured h hn => exact noneRefused_setPhase (s := calibrateFrom _ s) _ hs
  | polled h hn => exact hs
  | initError h hr => exact noneRefused_respond _ nofun (noneRefused_setPhase _ hs)
  | pollError h hr => exact noneRefused_respond _ nofun hs
  | initShort h hn => exact noneRefused_respond _ nofun (noneRefused_setPhase _ hs)
  | pollShort h hn => exact noneRefused_respond _ nofun hs

/-- The phase is tested at acceptance only (R171): no micro-step answers `NotReadyError`. -/
theorem MicroEffect.noneRefused {s t : State} (h : MicroEffect s t) (hs : NoneRefused s) : NoneRefused t := by
  cases h with
  | idle h => exact hs
  | waits hr hi hc => exact hs
  | issues hr hi => exact noneRefused_emit (s := { s with inflight := some _ }) rfl hs
  | answered hr hi hc h =>
    exact h.noneRefused (noneRefused_emit (s := { s with inflight := none, answers := _, stale := 0 }) rfl hs)
  | settles h => exact noneRefused_emit rfl hs
  | finishesInit h => exact noneRefused_respond _ nofun (noneRefused_setPhase _ hs)
  | finishesPoll h => exact noneRefused_respond (s := storeCs _ s) _ nofun hs

theorem runMicro_noneRefused (n : Nat) {s : State} (hs : NoneRefused s) : NoneRefused (runMicro n s) :=
  runMicro_keeps (fun u => (microStep_effect u).noneRefused) n hs

/-- The commands of several steps may report every status but a refusal. -/
theorem mayReport_of_command {m : Micro} {i : Instr} {e : Status} (hm : m.command = some i) (he : e ≠ .notReadyError) :
    mayReport i e = true := by
  have hi : i = .init ∨ i = .poll := by cases m <;> cases hm <;> simp
  obtain rfl | rfl := hi
  · cases e with
    | notReadyError => exact absurd rfl he
    | ok | transportError | readLengthError => rfl
  · rfl

/-! The statuses of the acceptance. -/

theorem mayReport_notReadyError {i : Instr} (hi : i ≠ .init) : mayReport i .notReadyError = true := by
  cases i with
  | init => exact absurd rfl hi
  | poll | decode rep | calibrate rep => rfl

/-- Acceptance leaves the command in progress without a response, or ends it with a status the table allows it. -/
theorem Accepts.reports {s u : State} {i : Instr} (h : Accepts s i u) :
    (u.micro.command = some i ∧ responsesOf u.out = []) ∨
    (u.micro = .idle ∧ ∃ r, responsesOf u.out = [r] ∧ mayReport i r.status = true) := by
  cases h with
  | init => exact .inl ⟨rfl, rfl⟩
  | poll h => exact .inl ⟨rfl, rfl⟩
  | decode h => exact .inr ⟨rfl, _, rfl, rfl⟩
  | calibrate h => exact .inr ⟨rfl, _, rfl, rfl⟩
  | refused hi h => exact .inr ⟨rfl, _, rfl, mayReport_notReadyError hi⟩

theorem exec_reports {i : Instr} {s t : State} (h : exec i s = .next t) :
    ∀ r ∈ responsesOf t.out, mayReport i r.status = true := by
  obtain ⟨u, hu⟩ := exists_accepts i s
  rw [hu.exec_eq] at h
  cases h
  obtain ⟨hcommand, hnone⟩ | ⟨hidle, r, hone, hmay⟩ := hu.reports
  · have ht := runMicro_noneRefused s.burst (noneRefused_of_responsesOf_nil hnone)
    exact fun r hr => mayReport_of_command hcommand (ht r hr)
  · rw [runMicro_fixed (microStep_idle hidle), hone]
    exact List.forall_mem_singleton.mpr hmay

/-- Settles O43: a refusal comes from acceptance alone; a later turn is micro-steps of a command that may report all
others. -/
theorem statusesByCommand : Obligations.StatusesByCommand := by
  refine ⟨fun i s t => exec_reports, fun i s t hrst hcommand hst r hr => ?_⟩
  have hbusy : s.micro ≠ .idle := fun hm => by simp [hm, Micro.command] at hcommand
  rw [step_resume hrst hbusy] at hst
  cases hst
  have hstatus := runMicro_noneRefused (s.burst + 1) (noneRefused_of_responsesOf_nil (s := idleTurn s) rfl) r hr
  exact ⟨mayReport_of_command hcommand hstatus, hstatus⟩

end Sys2Proof.Machine
end

section
/-! PROOF. Reset (70_reset_and_hazards.md R191, R192): the state it leaves, what becomes of the answers to forgotten
requests, and the block left alone. -/

namespace Sys2Proof.Machine

/-! The answers still to come. -/

/-- All the answers there belong to forgotten requests: none of them is for the block. -/
theorem coming_eq_nil {s : State} : coming s = [] ↔ s.answers.length ≤ s.stale := List.drop_eq_nil_iff

/-- Once the forgotten requests are answered, a further answer is for the block, after those it has yet to take. -/
theorem coming_deliver {s : State} (h : s.stale ≤ s.answers.length) (a : Answer) :
    coming (s.deliver a) = coming s ++ [a] :=
  List.drop_append_of_le_length h

theorem forgotten_of_inflight {s : State} {r : Request} (hi : s.inflight = some r) : forgotten s = s.stale + 1 := by
  simp [forgotten, hi]

/-- Reset takes the answer to the outstanding request away from the block. -/
theorem coming_resetBlock {s : State} {r : Request} (hi : s.inflight = some r) :
    coming (resetBlock s) = (coming s).tail := by
  simp [coming, forgotten_of_inflight hi]

/-! The obligations. -/

/-- Settles O37: reset forgets one request more, so one answer more is passed over. -/
theorem lateAnswerIsIgnored : Obligations.LateAnswerIsIgnored := by
  intro s t r hrst hi hst
  rw [step_reset hrst] at hst
  cases hst
  refine ⟨fun late rest hc => by rw [coming_resetBlock hi, hc, List.tail_cons], fun hall late next => ?_⟩
  have hstale : ((resetBlock s).deliver late).stale = ((resetBlock s).deliver late).answers.length := by
    simp [State.deliver, forgotten_of_inflight hi, hall]
  have hlate : coming ((resetBlock s).deliver late) = [] := coming_eq_nil.mpr hstale.ge
  exact ⟨hlate, by rw [coming_deliver hstale.le, hlate, List.nil_append]⟩

/-- Settles O38: a turn with nothing to do leaves a state whose next turn has nothing to do. -/
theorem idleBlockDoesNothing : Obligations.IdleBlockDoesNothing := by
  intro s hrst hm hc
  have hagain : step (idleTurn s) = .next (idleTurn s) := step_wait (s := idleTurn s) hrst hm hc
  exact core_run_fixed (step_wait hrst hm hc) hagain

/-- Settles O36: the fields of the state after reset, whatever the state before it. -/
theorem resetTakesTheResetState : Obligations.ResetTakesTheResetState := fun s hrst =>
  ⟨resetBlock s, step_reset hrst, rfl, rfl, ⟨rfl, rfl⟩, rfl, rfl, rfl, rfl, rfl⟩

end Sys2Proof.Machine
end

section
/-! PROOF. The command words of the test vectors (95_test_vectors.md): a number below 2 ^ 66 is the word it is written as,
and its opcode names the row of the command map (30_encoding.md R79). -/

namespace Sys2Proof

/-- A number is decoded as the command word it is the number of. -/
theorem decodeNumber_of_word {n : Nat} (w : CommandWord) {i : Instr} (hn : w.toNat = n) (hi : decodeCommand w = i) :
    decodeNumber n = .ok i := by
  rw [← hn, decodeNumber_toNat, hi]

/-- Settles O4: the opcode of each word names its row, which takes no operand, the whole of it, or its low 48 bits. -/
theorem specWordsDecode : Obligations.SpecWordsDecode := by
  refine ⟨decodeNumber_of_word 0x00000000000000000 rfl ?_, decodeNumber_of_word 0x0DEADBEEF00C0FFEE rfl ?_,
    decodeNumber_of_word 0x10000000000000000 rfl ?_, decodeNumber_of_word 0x2EEB7F005FF0032C8 rfl ?_,
    decodeNumber_of_word 0x3FFFF03127E80847C rfl ?_⟩
  · exact decodeCommand_of_opField_zero (by decide)
  · exact decodeCommand_of_opField_zero (by decide)
  · exact decodeCommand_of_opField_one (by decide)
  · rw [decodeCommand_of_opField_two (by decide)]
    decide
  · rw [decodeCommand_of_opField_three (by decide)]
    decide

end Sys2Proof
end
